-- ==== Sys2Proof/Word.lean ====
section
/-! DEFINITION. The widths of the machine: words, program indices, instruction words (00_scope.md R6, R8, R10). -/

namespace Sys2Proof

/-- A word: every stack element, memory value, memory address and 32-bit payload (00_scope.md R6, R10).
`v.toInt` is the spec's `s(v)`, `v.toNat` its `u(v)`. -/
abbrev Word := BitVec 32

/-- A program index, `PCLEN = 32` bits unsigned (00_scope.md R8, 10_state.md R23). -/
abbrev Index := BitVec 32

/-- An instruction word, `ILEN = 40` bits (00_scope.md R8, 30_encoding.md R70). -/
abbrev InstrWord := BitVec 40

/-- The opcode field's width, `w[39:32]` (30_encoding.md R71). -/
abbrev Opcode := BitVec 8

end Sys2Proof
end

