-- ==== Sys2Proof/Config.lean ====
section
/-! DEFINITION. The implementation parameters of the engine (00_scope.md R7). -/

namespace Sys2Proof

/-- The range of `STACK_DEPTH` and `CALL_DEPTH`: "a natural number or `inf`" (00_scope.md R7). -/
inductive Capacity where
  | finite (n : Nat)
  | inf
deriving DecidableEq, Repr

/-- The three named parameters of 00_scope.md R7. `MAX_PROG_LEN` has the range 0 to 2^32 - 1. -/
structure Config where
  /-- `STACK_DEPTH`: the largest number of elements the operand stack can hold. -/
  stackDepth : Capacity
  /-- `CALL_DEPTH`: the largest number of return addresses the call stack can hold. -/
  callDepth : Capacity
  /-- `MAX_PROG_LEN`: the largest program length that LOAD accepts. -/
  maxProgLen : Fin 4294967296
deriving DecidableEq, Repr

/-- The values that reproduce the source document exactly (00_scope.md R7, last column). -/
def Config.document : Config := ⟨.inf, .inf, 4294967295⟩

end Sys2Proof
end

