-- ==== Sys2Proof/Machine/State.lean ====
section
/-! DEFINITION. The state of the engine as plain data (10_state.md R20 to R39), the ways a step can stop, and the state
after RESET (70_reset_and_hazards.md R230). -/

namespace Sys2Proof.Machine

/-- `PENDING`, the Pending Input Request (10_state.md R27). -/
inductive Pending where
  /-- No request. -/
  | none
  /-- Set by `Read`: the host is to deliver a word. -/
  | numeric
  /-- Set by `Scan`: the host is to obtain a line. -/
  | line
deriving DecidableEq, Repr

/-- `FAULT_KIND`: the fault kinds of 60_exceptions.md R201. They are architectural state: raising one gives a next
state (R204), not a stop of the model. -/
inductive FaultKind where
  | none
  | stackUnderflow
  | arithmeticError
  | unknownLabel
  | duplicateLabel
  | callStackUnderflow
  /-- Host side only; the engine never records it (60_exceptions.md R208). -/
  | inputParseError
  | stackOverflow
  | callStackOverflow
  | illegalInstruction
deriving DecidableEq, Repr

/-- `STATUS` (10_state.md R36); derived from the state, never stored. -/
inductive Status where
  | ready
  | awaitingInput
  | halted
  | faulted
deriving DecidableEq, Repr

/-- The data memory `MEM` (10_state.md R32): its present entries as (address, word) cells, the address being `u(a)`.
An address that is not listed is `absent`. The canonical form, strictly rising addresses, is `Memory.wf` of
Machine/Ops.lean. The cells are words because the addressable unit is the word and a model must not lay words out as
bytes (20_memory.md R51). -/
abbrev Memory := List (Nat × Word)

/-- The Label Table `LT` (10_state.md R31): its entries (identifier, index), in rising order of index. -/
abbrev LabelTable := List (Word × Index)

/-- The output events (45_io.md R160). -/
inductive Event where
  /-- `Print(v)`: the top of the stack. -/
  | print (v : Word)
  /-- `PrintEmpty`: the "'empty' indicator". -/
  | printEmpty
  /-- `Write(m)`: the message identifier. -/
  | write (m : Word)
  /-- `Dump(os, mem)`: the whole operand stack, bottom first, and every present address with its value. -/
  | dump (os : List Word) (mem : Memory)
deriving DecidableEq, Repr

/-- The whole state (10_state.md R39). `L` is the length of `prog` and `STATUS` a function of the rest (R36), so neither
is stored. -/
@[ext]
structure State where
  /-- The implementation parameters (00_scope.md R7): the MODEL's own field; nothing writes it. -/
  cfg : Config
  /-- `OS`, bottom first: the top is the last element (10_state.md R21, 00_scope.md R13). -/
  os : List Word
  /-- `CS`, bottom first (10_state.md R30, 00_scope.md R14). -/
  cs : List Index
  /-- `PC` (10_state.md R23). -/
  pc : Index
  /-- `MEM` (10_state.md R32). -/
  mem : Memory
  /-- `PROG` (10_state.md R29). -/
  prog : List InstrWord
  /-- `LT` (10_state.md R31). -/
  labels : LabelTable
  /-- `PENDING` (10_state.md R27). -/
  pending : Pending
  /-- `TRACE` (10_state.md R26). -/
  trace : Bool
  /-- `FAULT_KIND` (10_state.md R28). -/
  faultKind : FaultKind
  /-- `FAULT_PC` (10_state.md R28); it has no meaning while `faultKind` is `none`. -/
  faultPc : Index
  /-- `OUT`, oldest event first (10_state.md R33). -/
  out : List Event
deriving DecidableEq, Repr

/-- The model's own stops by fault. No fault of the spec is among them: those are `FaultKind`s. -/
inductive Fault where
  /-- Raised by `step` alone, when the status is Ready and the program has no word at `PC`. It needs `PC > L`, which
  10_state.md R35 (a) rules out after every command, so no run meets it. Safe: the model stops where the spec gives
  nothing to do. -/
  | fetchOutsideProgram
deriving DecidableEq, Repr

/-- The model's refusals. -/
inductive Refusal where
  /-- Raised by `exec` for an instruction that has no meaning yet; every instruction has one, so it is never raised.
  Safe. -/
  | notModelled (mnemonic : String)
  /-- Raised by the host command LOAD for a program longer than `MAX_PROG_LEN`: "the host must not issue it, and a
  model refuses it" (70_reset_and_hazards.md R231). Safe. -/
  | programTooLong
deriving DecidableEq, Repr

/-- What a step, an instruction or a host command answers. -/
abbrev Result := Host.Outcome State Fault Refusal

/-- The state after RESET of an engine with the parameters `cfg` (70_reset_and_hazards.md R230). -/
def State.resetOf (cfg : Config) : State where
  cfg := cfg
  os := []
  cs := []
  pc := 0
  mem := []
  prog := []
  labels := []
  pending := .none
  trace := false
  faultKind := .none
  faultPc := 0
  out := []

/-- The state after RESET (and at power-on, 70_reset_and_hazards.md R230) of the engine whose parameters reproduce the
source document exactly (00_scope.md R7). -/
def State.reset : State := State.resetOf Config.document

end Sys2Proof.Machine
end

