-- ==== Sys2Proof/Machine/Flags.lean ====
section
/-! DEFINITION. The machine has no flags and no condition codes (10_state.md R25). What stands in their place is a truth
value held as a word: the 1 or 0 that a comparison pushes (42_comparison.md R125) and the test of a popped word by a
conditional branch (43_control.md R137, R138). -/

namespace Sys2Proof.Machine

/-- The word 1 when the relation holds and the word 0 when it does not (42_comparison.md R125). -/
def truthWord (holds : Bool) : Word := if holds then 1 else 0

/-- The truth sense of the branches and of `Bool`: any non-zero word is true (43_control.md R137, 46_bitwise.md R177). -/
def truthOf (v : Word) : Bool := v != 0

end Sys2Proof.Machine
end

