-- ==== Sys2Proof/Machine/Alu.lean ====
section
/-! DEFINITION. The integer functions of the pseudocode (00_scope.md R10, R18) and the 21 functions of the ALU
(30_encoding.md R81). Every function takes the left-hand side first. -/

namespace Sys2Proof.Machine

/-- `wrap(n)`: the word `w` with `u(w) = n mod 2^32` (00_scope.md R10). -/
def wrap (n : Int) : Word := BitVec.ofInt 32 n

/-- `tdiv(a, b)`: the quotient rounded toward zero (00_scope.md R18). -/
def tdiv (a b : Int) : Int := Int.tdiv a b

/-- `trem(a, b) = a - b * tdiv(a, b)` (00_scope.md R18). -/
def trem (a b : Int) : Int := a - b * tdiv a b

/-- `shl(v, n) = wrap(u(v) * 2^n)` (00_scope.md R18). -/
def shl (v : Word) (n : Nat) : Word := wrap (v.toNat * 2 ^ n)

/-- `asr(v, n) = wrap(floor(s(v) / 2^n))` (00_scope.md R18). `Int` division by a positive number is the floor. -/
def asr (v : Word) (n : Nat) : Word := wrap (v.toInt / 2 ^ n)

/-- The shift amount, `u(rhs[4:0])` (46_bitwise.md R175, R176). -/
def shiftAmount (rhs : Word) : Nat := (rhs.extractLsb' 0 5).toNat

/-! ### Arithmetic (41_arithmetic.md) -/

/-- R111. -/
def aluAdd (lhs rhs : Word) : Word := wrap (lhs.toInt + rhs.toInt)

/-- R112. -/
def aluSub (lhs rhs : Word) : Word := wrap (lhs.toInt - rhs.toInt)

/-- R113. -/
def aluMul (lhs rhs : Word) : Word := wrap (lhs.toInt * rhs.toInt)

/-- R114, for a divisor that is not 0. -/
def aluDiv (lhs rhs : Word) : Word := wrap (tdiv lhs.toInt rhs.toInt)

/-- R115, for a divisor that is not 0. -/
def aluRem (lhs rhs : Word) : Word := wrap (trem lhs.toInt rhs.toInt)

/-- R116. -/
def aluNeg (a : Word) : Word := wrap (0 - a.toInt)

/-- R117. -/
def aluInc (a : Word) : Word := wrap (a.toInt + 1)

/-- R118. -/
def aluDec (a : Word) : Word := wrap (a.toInt - 1)

/-! ### Comparison, signed (42_comparison.md R125) -/

/-- R126. -/
def aluEq (lhs rhs : Word) : Word := truthWord (decide (lhs.toInt = rhs.toInt))

/-- R127. -/
def aluNe (lhs rhs : Word) : Word := truthWord (decide (lhs.toInt ≠ rhs.toInt))

/-- R128. -/
def aluLe (lhs rhs : Word) : Word := truthWord (decide (lhs.toInt ≤ rhs.toInt))

/-- R129. -/
def aluGe (lhs rhs : Word) : Word := truthWord (decide (lhs.toInt ≥ rhs.toInt))

/-- R130. -/
def aluLt (lhs rhs : Word) : Word := truthWord (decide (lhs.toInt < rhs.toInt))

/-- R131. -/
def aluGt (lhs rhs : Word) : Word := truthWord (decide (lhs.toInt > rhs.toInt))

/-! ### Bitwise and logical (46_bitwise.md) -/

/-- R171. -/
def aluAnd (lhs rhs : Word) : Word := lhs &&& rhs

/-- R172. -/
def aluOr (lhs rhs : Word) : Word := lhs ||| rhs

/-- R173. -/
def aluXor (lhs rhs : Word) : Word := lhs ^^^ rhs

/-- R174. -/
def aluNot (a : Word) : Word := ~~~a

/-- R175. -/
def aluShl (lhs rhs : Word) : Word := shl lhs (shiftAmount rhs)

/-- R176. -/
def aluShr (lhs rhs : Word) : Word := asr lhs (shiftAmount rhs)

/-- R177. -/
def aluBool (a : Word) : Word := truthWord (truthOf a)

end Sys2Proof.Machine
end

