-- ==== Sys2Proof/Syntax.lean ====
section
/-! DEFINITION. The 45 instructions, one constructor per row of the opcode map (30_encoding.md R77), each with the
payload its format gives it (R72). -/

namespace Sys2Proof

/-- An instruction. The docstring of each constructor names its row of 30_encoding.md R77 and the rule of its meaning. -/
inductive Instr where
  /-- 0x10 `Push(k)`: push constant (40_stack.md R101). -/
  | push (k : Word)
  /-- 0x11 `Pop` (40_stack.md R102). -/
  | pop
  /-- 0x12 `Dup`: duplicate top (40_stack.md R103). -/
  | dup
  /-- 0x13 `Swap`: swap top two (40_stack.md R104). -/
  | swap
  /-- 0x14 `Rot`: rotate top three (40_stack.md R105). -/
  | rot
  /-- 0x15 `Clear`: clear all (40_stack.md R106). -/
  | clear
  /-- 0x20 `Add` (41_arithmetic.md R111). -/
  | add
  /-- 0x21 `Sub` (41_arithmetic.md R112). -/
  | sub
  /-- 0x22 `Mul` (41_arithmetic.md R113). -/
  | mul
  /-- 0x23 `Div` (41_arithmetic.md R114). -/
  | div
  /-- 0x24 `Rem` (41_arithmetic.md R115). -/
  | rem
  /-- 0x25 `Neg` (41_arithmetic.md R116). -/
  | neg
  /-- 0x26 `Inc` (41_arithmetic.md R117). -/
  | inc
  /-- 0x27 `Dec` (41_arithmetic.md R118). -/
  | dec
  /-- 0x30 `Eq` (42_comparison.md R126). -/
  | eq
  /-- 0x31 `Ne` (42_comparison.md R127). -/
  | ne
  /-- 0x32 `Le` (42_comparison.md R128). -/
  | le
  /-- 0x33 `Ge` (42_comparison.md R129). -/
  | ge
  /-- 0x34 `Lt` (42_comparison.md R130). -/
  | lt
  /-- 0x35 `Gt` (42_comparison.md R131). -/
  | gt
  /-- 0x40 `Jump(id)`; `id` is a label identifier (43_control.md R136). -/
  | jump (id : Word)
  /-- 0x41 `Brt(id)`: branch if true (43_control.md R137). -/
  | brt (id : Word)
  /-- 0x42 `Brz(id)`: branch if zero (43_control.md R138). -/
  | brz (id : Word)
  /-- 0x43 `Call(id)` (43_control.md R139). -/
  | call (id : Word)
  /-- 0x44 `Ret` (43_control.md R140). -/
  | ret
  /-- 0x45 `RetV(k)`: return with a value (43_control.md R141). -/
  | retV (k : Word)
  /-- 0x46 `Label(id)`: label marker (43_control.md R142). -/
  | label (id : Word)
  /-- 0x47 `Halt` (43_control.md R143). -/
  | halt
  /-- 0x50 `Load(a)`; `a` is a data address (44_memory.md R150). -/
  | load (a : Word)
  /-- 0x51 `Store(a)` (44_memory.md R151). -/
  | store (a : Word)
  /-- 0x52 `Alloc(n)`; `n` is read as the signed count `s(n)` (44_memory.md R152). -/
  | alloc (n : Word)
  /-- 0x53 `Free(a)` (44_memory.md R153). -/
  | free (a : Word)
  /-- 0x60 `Print` (45_io.md R161). -/
  | print
  /-- 0x61 `Read`: request numeric input (45_io.md R162). -/
  | read
  /-- 0x62 `Write(m)`; `m` is a message identifier (45_io.md R163). -/
  | write (m : Word)
  /-- 0x63 `Scan`: request a line of input (45_io.md R164). -/
  | scan
  /-- 0x70 `And` (46_bitwise.md R171). -/
  | and
  /-- 0x71 `Or` (46_bitwise.md R172). -/
  | or
  /-- 0x72 `Xor` (46_bitwise.md R173). -/
  | xor
  /-- 0x73 `Not` (46_bitwise.md R174). -/
  | not
  /-- 0x74 `Shl` (46_bitwise.md R175). -/
  | shl
  /-- 0x75 `Shr` (46_bitwise.md R176). -/
  | shr
  /-- 0x76 `Bool`: boolean-coerce (46_bitwise.md R177). -/
  | bool
  /-- 0x80 `Dump` (47_debug.md R181). -/
  | dump
  /-- 0x81 `Trace(f)`; `f` is the one-bit payload of format F (47_debug.md R182, 30_encoding.md R74). -/
  | trace (f : Bool)
deriving DecidableEq, Repr

/-- The mnemonic of the opcode map (30_encoding.md R77, R85). -/
def Instr.mnemonic : Instr → String
  | .push _ => "Push"
  | .pop => "Pop"
  | .dup => "Dup"
  | .swap => "Swap"
  | .rot => "Rot"
  | .clear => "Clear"
  | .add => "Add"
  | .sub => "Sub"
  | .mul => "Mul"
  | .div => "Div"
  | .rem => "Rem"
  | .neg => "Neg"
  | .inc => "Inc"
  | .dec => "Dec"
  | .eq => "Eq"
  | .ne => "Ne"
  | .le => "Le"
  | .ge => "Ge"
  | .lt => "Lt"
  | .gt => "Gt"
  | .jump _ => "Jump"
  | .brt _ => "Brt"
  | .brz _ => "Brz"
  | .call _ => "Call"
  | .ret => "Ret"
  | .retV _ => "RetV"
  | .label _ => "Label"
  | .halt => "Halt"
  | .load _ => "Load"
  | .store _ => "Store"
  | .alloc _ => "Alloc"
  | .free _ => "Free"
  | .print => "Print"
  | .read => "Read"
  | .write _ => "Write"
  | .scan => "Scan"
  | .and => "And"
  | .or => "Or"
  | .xor => "Xor"
  | .not => "Not"
  | .shl => "Shl"
  | .shr => "Shr"
  | .bool => "Bool"
  | .dump => "Dump"
  | .trace _ => "Trace"

/-- The payload as the assembly notation writes it in decimal: signed for constants and addresses, unsigned for label
and message identifiers, 0 or 1 for the flag of `Trace`; none for format N (30_encoding.md R83). -/
def Instr.payload : Instr → Option Int
  | .push k => some k.toInt
  | .pop => none
  | .dup => none
  | .swap => none
  | .rot => none
  | .clear => none
  | .add => none
  | .sub => none
  | .mul => none
  | .div => none
  | .rem => none
  | .neg => none
  | .inc => none
  | .dec => none
  | .eq => none
  | .ne => none
  | .le => none
  | .ge => none
  | .lt => none
  | .gt => none
  | .jump id => some id.toNat
  | .brt id => some id.toNat
  | .brz id => some id.toNat
  | .call id => some id.toNat
  | .ret => none
  | .retV k => some k.toInt
  | .label id => some id.toNat
  | .halt => none
  | .load a => some a.toInt
  | .store a => some a.toInt
  | .alloc n => some n.toInt
  | .free a => some a.toInt
  | .print => none
  | .read => none
  | .write m => some m.toNat
  | .scan => none
  | .and => none
  | .or => none
  | .xor => none
  | .not => none
  | .shl => none
  | .shr => none
  | .bool => none
  | .dump => none
  | .trace f => some (if f then 1 else 0)

/-- The assembly notation, `Mnemonic` or `Mnemonic(payload)` (30_encoding.md R83). -/
def Instr.assembly (i : Instr) : String :=
  match i.payload with
  | none => i.mnemonic
  | some n => i.mnemonic ++ "(" ++ toString n ++ ")"

end Sys2Proof
end

