-- ==== Sys2Proof/Decode.lean ====
section
/-! DEFINITION. Decoding of the 40-bit instruction word, total, rejecting by name (30_encoding.md R78, R79), and the
encoder that is its inverse (R78). One index is one whole word and the machine has no byte order (20_memory.md R51), so
the decoder reads the word and not a row of bytes. -/

namespace Sys2Proof

/-- `w[39:32]` (30_encoding.md R71). -/
def opcodeOf (w : InstrWord) : Opcode := w.extractLsb' 32 8

/-- `w[31:0]` (30_encoding.md R71, R73). -/
def operandOf (w : InstrWord) : Word := w.extractLsb' 0 32

/-- The word `{opcode, operand}` (30_encoding.md R78). -/
def mkWord (op : Opcode) (x : Word) : InstrWord := op ++ x

/-- Why a word is illegal: the three cases of 30_encoding.md R79. -/
inductive DecodeError where
  /-- (a) The opcode is not one of the 45 of R77. -/
  | unassignedOpcode (op : Opcode)
  /-- (b) A word of an N instruction with a non-zero operand field. -/
  | operandNotZero (x : Word)
  /-- (c) A `Trace` word with any of bits 31 to 1 set. -/
  | flagBitsNotZero (x : Word)
deriving DecidableEq, Repr

/-- Format N: the operand field must be 0 (30_encoding.md R72). -/
def noOperand (x : Word) (i : Instr) : Except DecodeError Instr :=
  if x = 0 then .ok i else .error (.operandNotZero x)

/-- The instruction of opcode `op` with operand field `x` (30_encoding.md R77, R78). -/
def decodeFields (op : Opcode) (x : Word) : Except DecodeError Instr :=
  match op.toNat with
  | 0x10 => .ok (.push x)
  | 0x11 => noOperand x .pop
  | 0x12 => noOperand x .dup
  | 0x13 => noOperand x .swap
  | 0x14 => noOperand x .rot
  | 0x15 => noOperand x .clear
  | 0x20 => noOperand x .add
  | 0x21 => noOperand x .sub
  | 0x22 => noOperand x .mul
  | 0x23 => noOperand x .div
  | 0x24 => noOperand x .rem
  | 0x25 => noOperand x .neg
  | 0x26 => noOperand x .inc
  | 0x27 => noOperand x .dec
  | 0x30 => noOperand x .eq
  | 0x31 => noOperand x .ne
  | 0x32 => noOperand x .le
  | 0x33 => noOperand x .ge
  | 0x34 => noOperand x .lt
  | 0x35 => noOperand x .gt
  | 0x40 => .ok (.jump x)
  | 0x41 => .ok (.brt x)
  | 0x42 => .ok (.brz x)
  | 0x43 => .ok (.call x)
  | 0x44 => noOperand x .ret
  | 0x45 => .ok (.retV x)
  | 0x46 => .ok (.label x)
  | 0x47 => noOperand x .halt
  | 0x50 => .ok (.load x)
  | 0x51 => .ok (.store x)
  | 0x52 => .ok (.alloc x)
  | 0x53 => .ok (.free x)
  | 0x60 => noOperand x .print
  | 0x61 => noOperand x .read
  | 0x62 => .ok (.write x)
  | 0x63 => noOperand x .scan
  | 0x70 => noOperand x .and
  | 0x71 => noOperand x .or
  | 0x72 => noOperand x .xor
  | 0x73 => noOperand x .not
  | 0x74 => noOperand x .shl
  | 0x75 => noOperand x .shr
  | 0x76 => noOperand x .bool
  | 0x80 => noOperand x .dump
  | 0x81 => if x.extractLsb' 1 31 = 0 then .ok (.trace (x.getLsbD 0)) else .error (.flagBitsNotZero x)
  | _ => .error (.unassignedOpcode op)

/-- `Decode(w)` of 30_encoding.md R78; an error is its `Illegal`. -/
def decode (w : InstrWord) : Except DecodeError Instr := decodeFields (opcodeOf w) (operandOf w)

/-- `Encode(i)` of 30_encoding.md R78: the one word of an instruction. -/
def encode (i : Instr) : InstrWord :=
  match i with
  | .push k => mkWord 0x10 k
  | .pop => mkWord 0x11 0
  | .dup => mkWord 0x12 0
  | .swap => mkWord 0x13 0
  | .rot => mkWord 0x14 0
  | .clear => mkWord 0x15 0
  | .add => mkWord 0x20 0
  | .sub => mkWord 0x21 0
  | .mul => mkWord 0x22 0
  | .div => mkWord 0x23 0
  | .rem => mkWord 0x24 0
  | .neg => mkWord 0x25 0
  | .inc => mkWord 0x26 0
  | .dec => mkWord 0x27 0
  | .eq => mkWord 0x30 0
  | .ne => mkWord 0x31 0
  | .le => mkWord 0x32 0
  | .ge => mkWord 0x33 0
  | .lt => mkWord 0x34 0
  | .gt => mkWord 0x35 0
  | .jump id => mkWord 0x40 id
  | .brt id => mkWord 0x41 id
  | .brz id => mkWord 0x42 id
  | .call id => mkWord 0x43 id
  | .ret => mkWord 0x44 0
  | .retV k => mkWord 0x45 k
  | .label id => mkWord 0x46 id
  | .halt => mkWord 0x47 0
  | .load a => mkWord 0x50 a
  | .store a => mkWord 0x51 a
  | .alloc n => mkWord 0x52 n
  | .free a => mkWord 0x53 a
  | .print => mkWord 0x60 0
  | .read => mkWord 0x61 0
  | .write m => mkWord 0x62 m
  | .scan => mkWord 0x63 0
  | .and => mkWord 0x70 0
  | .or => mkWord 0x71 0
  | .xor => mkWord 0x72 0
  | .not => mkWord 0x73 0
  | .shl => mkWord 0x74 0
  | .shr => mkWord 0x75 0
  | .bool => mkWord 0x76 0
  | .dump => mkWord 0x80 0
  | .trace f => mkWord 0x81 (if f then 1 else 0)

/-- The low `nbits` bits of `w` as an instruction word: bit 0 is the least significant bit of the one 40-bit word, and
the bits above `nbits` are 0. -/
def tableWord (nbits w : Nat) : InstrWord := BitVec.ofNat 40 (w % 2 ^ nbits)

/-- The instruction that the decoder reads from a row of the opcode table whose bits are `w`. -/
def decodeTableWord (nbits w : Nat) : Option Instr :=
  match decode (tableWord nbits w) with
  | .ok i => some i
  | .error _ => none

end Sys2Proof
end

