-- ==== Sys2Proof/Machine/Ops.lean ====
section
/-! DEFINITION. The named operations on the state: the primitives of 00_scope.md R13 to R17, the status (10_state.md
R36), the Label Table read (R31), the fetch (R45) and the raising of a fault (60_exceptions.md R204). -/

namespace Sys2Proof.Machine

/-! ### Operand stack (00_scope.md R13). No primitive raises a fault by itself. -/

/-- `depth`. -/
def State.depth (s : State) : Nat := s.os.length

/-- `peek(k)`, the element `k` places below the top. Used only after `k < depth` was tested; the 0 beyond the bottom is
never read. -/
def State.peek (s : State) (k : Nat) : Word := s.os.reverse.getD k 0

/-- `drop(n)`, removing the top `n` elements. Used only for `n <= depth`. -/
def State.drop (s : State) (n : Nat) : State := { s with os := s.os.take (s.os.length - n) }

/-- `push(v)`, appending `v` as the new top. -/
def State.push (s : State) (v : Word) : State := { s with os := s.os ++ [v] }

/-- `depth == STACK_DEPTH` (40_stack.md R101); never so when `STACK_DEPTH = inf`. -/
def State.stackFull (s : State) : Bool :=
  match s.cfg.stackDepth with
  | .finite n => s.depth == n
  | .inf => false

/-! ### Call stack (00_scope.md R14) -/

/-- `cdepth`. -/
def State.cdepth (s : State) : Nat := s.cs.length

/-- `cpush(a)`. -/
def State.cpush (s : State) (a : Index) : State := { s with cs := s.cs ++ [a] }

/-- The element `cpop()` returns. Used only after `cdepth > 0` was tested; the 0 of an empty stack is never read. -/
def State.ctop (s : State) : Index := s.cs.getLastD 0

/-- The state `cpop()` leaves. -/
def State.cdrop (s : State) : State := { s with cs := s.cs.dropLast }

/-- `cdepth == CALL_DEPTH` (43_control.md R139); never so when `CALL_DEPTH = inf`. -/
def State.callStackFull (s : State) : Bool :=
  match s.cfg.callDepth with
  | .finite n => s.cdepth == n
  | .inf => false

/-! ### Data memory (00_scope.md R15, 20_memory.md R54). One cell is one word; an address is `u(a)`. -/

/-- The canonical form: addresses strictly rising, all below 2^32. No cell can equal what an unlisted address holds,
since an unlisted address is `absent` and a cell is `present`. -/
abbrev Memory.wf (m : Memory) : Prop := m.Pairwise (fun x y => x.1 < y.1) ∧ ∀ c ∈ m, c.1 < 4294967296

/-- `MEM[a]`: `none` is `absent`, `some v` is `present(v)` (10_state.md R32). -/
def Memory.entry : Memory → Nat → Option Word
  | [], _ => none
  | (b, v) :: m, a => if b = a then some v else Memory.entry m a

/-- `MemRead(a, 1)`: the word at `a`, 0 when `a` is absent (20_memory.md R54). -/
def Memory.read (m : Memory) (a : Nat) : Word := (m.entry a).getD 0

/-- `MemWrite(a, 1, v)`: `MEM[a] <- present(v)` (20_memory.md R54). -/
def Memory.write : Memory → Nat → Word → Memory
  | [], a, v => [(a, v)]
  | (b, u) :: m, a, v =>
    if a < b then (a, v) :: (b, u) :: m
    else if a = b then (a, v) :: m
    else (b, u) :: Memory.write m a v

/-- `MemFree(a)`: `MEM[a] <- absent` (20_memory.md R54). -/
def Memory.free (m : Memory) (a : Nat) : Memory := m.filter (fun c => c.1 != a)

/-- `MemWrite(a, 1, 0)` for each of the addresses 0 to `n - 1` (44_memory.md R152), at once: the zeroed block lies
below every cell that is kept. -/
def Memory.zeroBlock (m : Memory) (n : Nat) : Memory :=
  (List.range n).map (fun a => (a, 0#32)) ++ m.filter (fun c => decide (n ≤ c.1))

def State.memRead (s : State) (a : Word) : Word := s.mem.read a.toNat

def State.memWrite (s : State) (a v : Word) : State := { s with mem := s.mem.write a.toNat v }

def State.memFree (s : State) (a : Word) : State := { s with mem := s.mem.free a.toNat }

/-- The writes of `Alloc(n)`: the count is `s(n)`, and a count of 0 or less writes nothing (44_memory.md R152). -/
def State.memAlloc (s : State) (n : Word) : State := { s with mem := s.mem.zeroBlock n.toInt.toNat }

/-! ### Control (00_scope.md R16) -/

/-- `L` as the 32-bit value that `Halt` and the host view use (10_state.md R29). -/
def State.progLen (s : State) : Index := BitVec.ofNat 32 s.prog.length

/-- `npc = PC + 1`, the post-advance counter (10_state.md R23). -/
def State.npc (s : State) : Index := s.pc + 1

/-- `PC <- target`. -/
def State.goto (s : State) (target : Index) : State := { s with pc := target }

/-- `PC <- npc`. -/
def State.advance (s : State) : State := s.goto s.npc

/-- The Label Table's entry for an identifier. -/
def LabelTable.find : LabelTable → Word → Option Index
  | [], _ => none
  | (k, i) :: t, id => if k = id then some i else LabelTable.find t id

/-- `Lookup(id)` (10_state.md R31). -/
def State.lookup (s : State) (id : Word) : Option Index := LabelTable.find s.labels id

/-- `emit(e)`: append to `OUT` (45_io.md R160). -/
def State.emit (s : State) (e : Event) : State := { s with out := s.out ++ [e] }

/-- `PENDING <- p` (45_io.md R162, R164, 10_state.md R43). -/
def State.request (s : State) (p : Pending) : State := { s with pending := p }

/-- `TRACE <- f` (47_debug.md R182). -/
def State.setTrace (s : State) (f : Bool) : State := { s with trace := f }

/-! ### Faults -/

/-- `raise K`, the one way a fault is taken: the kind and the faulting index are recorded, and every other element
keeps its value (60_exceptions.md R204, 00_scope.md R17). There is no handler and no return (R205). -/
def State.raise (s : State) (k : FaultKind) : State := { s with faultKind := k, faultPc := s.pc }

/-- An instruction that raises `k`: its next state (60_exceptions.md R204). -/
def fail (s : State) (k : FaultKind) : Result := .next (s.raise k)

/-! ### Status and fetch -/

/-- `STATUS` (10_state.md R36). -/
def State.status (s : State) : Status :=
  if s.faultKind ≠ .none then .faulted
  else if s.pending ≠ .none then .awaitingInput
  else if s.pc.toNat = s.prog.length then .halted
  else .ready

/-- `PROG[PC]` (10_state.md R45); none where the program has no such index. -/
def State.fetch (s : State) : Option InstrWord := s.prog[s.pc.toNat]?

/-! ### Codes of the status ports -/

/-- The 4-bit fault code (60_exceptions.md R201). -/
def FaultKind.code : FaultKind → BitVec 4
  | .none => 0
  | .stackUnderflow => 1
  | .arithmeticError => 2
  | .unknownLabel => 3
  | .duplicateLabel => 4
  | .callStackUnderflow => 5
  | .inputParseError => 6
  | .stackOverflow => 7
  | .callStackOverflow => 8
  | .illegalInstruction => 9

/-- The code of `PENDING` on a status port (10_state.md R27). -/
def Pending.code : Pending → Nat
  | .none => 0
  | .numeric => 1
  | .line => 2

/-- The code of `STATUS` on its port (10_state.md R36). -/
def Status.code : Status → Nat
  | .ready => 0
  | .awaitingInput => 1
  | .halted => 2
  | .faulted => 3

end Sys2Proof.Machine
end

