-- ==== Sys2Proof/Machine/Operands.lean ====
section
/-! DEFINITION. The operand forms: where an instruction finds its operands, which fault it raises when one is missing,
and where its result goes. Each form tests first, in the order of 60_exceptions.md R203, and writes only after every
test has passed (00_scope.md R17). -/

namespace Sys2Proof.Machine

/-- A binary operation of the ALU: `rhs = peek(0)`, `lhs = peek(1)`, both removed, one result pushed
(41_arithmetic.md R110, 42_comparison.md R125, 46_bitwise.md R170). -/
def binary (f : Word → Word → Word) (s : State) : Result :=
  if s.depth < 2 then fail s .stackUnderflow
  else .next (((s.drop 2).push (f (s.peek 1) (s.peek 0))).advance)

/-- A binary operation that a zero right operand makes an ArithmeticError (41_arithmetic.md R114, R115). -/
def dividing (f : Word → Word → Word) (s : State) : Result :=
  if s.depth < 2 then fail s .stackUnderflow
  else if (s.peek 0).toInt = 0 then fail s .arithmeticError
  else .next (((s.drop 2).push (f (s.peek 1) (s.peek 0))).advance)

/-- A unary operation of the ALU: the top is replaced by the result (41_arithmetic.md R110, 46_bitwise.md R170). -/
def unary (f : Word → Word) (s : State) : Result :=
  if s.depth < 1 then fail s .stackUnderflow
  else .next (((s.drop 1).push (f (s.peek 0))).advance)

/-- An instruction that only pushes a value (40_stack.md R101, 44_memory.md R150). -/
def pushing (v : Word) (s : State) : Result :=
  if s.stackFull then fail s .stackOverflow
  else .next ((s.push v).advance)

/-- A conditional branch: the tested value is consumed whether or not the branch fires, and the label is looked up
before the test (43_control.md R135, R137, R138). -/
def branch (fires : Word → Bool) (id : Word) (s : State) : Result :=
  if s.depth < 1 then fail s .stackUnderflow
  else
    match s.lookup id with
    | none => fail s .unknownLabel
    | some t => .next (if fires (s.peek 0) then (s.drop 1).goto t else (s.drop 1).advance)

end Sys2Proof.Machine
end

