-- ==== Sys2Proof/Machine/Arithmetic.lean ====
section
/-! DEFINITION. Arithmetic: `Add`, `Sub`, `Mul`, `Div`, `Rem`, `Neg`, `Inc`, `Dec` (41_arithmetic.md). -/

namespace Sys2Proof.Machine

/-- `Add`, 41_arithmetic.md R111. -/
def execAdd (s : State) : Result := binary aluAdd s

/-- `Sub`, 41_arithmetic.md R112: second minus top. -/
def execSub (s : State) : Result := binary aluSub s

/-- `Mul`, 41_arithmetic.md R113. -/
def execMul (s : State) : Result := binary aluMul s

/-- `Div`, 41_arithmetic.md R114: second divided by top. -/
def execDiv (s : State) : Result := dividing aluDiv s

/-- `Rem`, 41_arithmetic.md R115. -/
def execRem (s : State) : Result := dividing aluRem s

/-- `Neg`, 41_arithmetic.md R116. -/
def execNeg (s : State) : Result := unary aluNeg s

/-- `Inc`, 41_arithmetic.md R117. -/
def execInc (s : State) : Result := unary aluInc s

/-- `Dec`, 41_arithmetic.md R118. -/
def execDec (s : State) : Result := unary aluDec s

end Sys2Proof.Machine
end

