-- ==== Sys2Proof/Machine/Bitwise.lean ====
section
/-! DEFINITION. Bitwise and logical: `And`, `Or`, `Xor`, `Not`, `Shl`, `Shr`, `Bool` (46_bitwise.md). -/

namespace Sys2Proof.Machine

/-- `And`, 46_bitwise.md R171. -/
def execAnd (s : State) : Result := binary aluAnd s

/-- `Or`, 46_bitwise.md R172. -/
def execOr (s : State) : Result := binary aluOr s

/-- `Xor`, 46_bitwise.md R173. -/
def execXor (s : State) : Result := binary aluXor s

/-- `Not`, 46_bitwise.md R174. -/
def execNot (s : State) : Result := unary aluNot s

/-- `Shl`, 46_bitwise.md R175: the second element shifted by the top. -/
def execShl (s : State) : Result := binary aluShl s

/-- `Shr`, 46_bitwise.md R176: arithmetic. -/
def execShr (s : State) : Result := binary aluShr s

/-- `Bool`, 46_bitwise.md R177. -/
def execBool (s : State) : Result := unary aluBool s

end Sys2Proof.Machine
end

