-- ==== Sys2Proof/Machine/Comparison.lean ====
section
/-! DEFINITION. Comparison: `Eq`, `Ne`, `Le`, `Ge`, `Lt`, `Gt` (42_comparison.md); second compared with top. -/

namespace Sys2Proof.Machine

/-- `Eq`, 42_comparison.md R126. -/
def execEq (s : State) : Result := binary aluEq s

/-- `Ne`, 42_comparison.md R127. -/
def execNe (s : State) : Result := binary aluNe s

/-- `Le`, 42_comparison.md R128. -/
def execLe (s : State) : Result := binary aluLe s

/-- `Ge`, 42_comparison.md R129. -/
def execGe (s : State) : Result := binary aluGe s

/-- `Lt`, 42_comparison.md R130. -/
def execLt (s : State) : Result := binary aluLt s

/-- `Gt`, 42_comparison.md R131. -/
def execGt (s : State) : Result := binary aluGt s

end Sys2Proof.Machine
end

