-- ==== Sys2Proof/Machine/Control.lean ====
section
/-! DEFINITION. Control flow: `Jump`, `Brt`, `Brz`, `Call`, `Ret`, `RetV`, `Label`, `Halt` (43_control.md). -/

namespace Sys2Proof.Machine

/-- `Jump(id)`, 43_control.md R136. -/
def execJump (id : Word) (s : State) : Result :=
  match s.lookup id with
  | none => fail s .unknownLabel
  | some t => .next (s.goto t)

/-- `Brt(id)`, 43_control.md R137. -/
def execBrt (id : Word) (s : State) : Result := branch truthOf id s

/-- `Brz(id)`, 43_control.md R138. -/
def execBrz (id : Word) (s : State) : Result := branch (fun v => !truthOf v) id s

/-- `Call(id)`, 43_control.md R139: the return address is the post-advance counter. -/
def execCall (id : Word) (s : State) : Result :=
  match s.lookup id with
  | none => fail s .unknownLabel
  | some t =>
    if s.callStackFull then fail s .callStackOverflow
    else .next ((s.cpush s.npc).goto t)

/-- `Ret`, 43_control.md R140. -/
def execRet (s : State) : Result :=
  if s.cdepth = 0 then fail s .callStackUnderflow
  else .next (s.cdrop.goto s.ctop)

/-- `RetV(k)`, 43_control.md R141. -/
def execRetV (k : Word) (s : State) : Result :=
  if s.cdepth = 0 then fail s .callStackUnderflow
  else if s.stackFull then fail s .stackOverflow
  else .next ((s.push k).cdrop.goto s.ctop)

/-- `Label(id)`, 43_control.md R142: the marker's work is done at load time. -/
def execLabel (_id : Word) (s : State) : Result := .next s.advance

/-- `Halt`, 43_control.md R143: `PC <- L`. -/
def execHalt (s : State) : Result := .next (s.goto s.progLen)

end Sys2Proof.Machine
end

