-- ==== Sys2Proof/Machine/Debug.lean ====
section
/-! DEFINITION. Debugging: `Dump`, `Trace` (47_debug.md). -/

namespace Sys2Proof.Machine

/-- `Dump`, 47_debug.md R181. -/
def execDump (s : State) : Result := .next ((s.emit (.dump s.os s.mem)).advance)

/-- `Trace(f)`, 47_debug.md R182: the flag is set to the payload, not inverted. -/
def execTrace (f : Bool) (s : State) : Result := .next ((s.setTrace f).advance)

end Sys2Proof.Machine
end

