-- ==== Sys2Proof/Machine/Io.lean ====
section
/-! DEFINITION. Input and output: `Print`, `Read`, `Write`, `Scan` (45_io.md). -/

namespace Sys2Proof.Machine

/-- `Print`, 45_io.md R161: the stack is unchanged, and an empty stack is no fault. -/
def execPrint (s : State) : Result :=
  if s.depth ≥ 1 then .next ((s.emit (.print (s.peek 0))).advance)
  else .next ((s.emit .printEmpty).advance)

/-- `Read`, 45_io.md R162: the room for the value to come is tested now. -/
def execRead (s : State) : Result :=
  if s.stackFull then fail s .stackOverflow
  else .next ((s.request .numeric).advance)

/-- `Write(m)`, 45_io.md R163. -/
def execWrite (m : Word) (s : State) : Result := .next ((s.emit (.write m)).advance)

/-- `Scan`, 45_io.md R164. -/
def execScan (s : State) : Result := .next ((s.request .line).advance)

end Sys2Proof.Machine
end

