-- ==== Sys2Proof/Machine/Memory.lean ====
section
/-! DEFINITION. Memory: `Load`, `Store`, `Alloc`, `Free` (44_memory.md); the address is the operand field itself
(R154). -/

namespace Sys2Proof.Machine

/-- `Load(a)`, 44_memory.md R150: 0 where `a` is absent, and no entry is created. -/
def execLoad (a : Word) (s : State) : Result := pushing (s.memRead a) s

/-- `Store(a)`, 44_memory.md R151. -/
def execStore (a : Word) (s : State) : Result :=
  if s.depth < 1 then fail s .stackUnderflow
  else .next (((s.drop 1).memWrite a (s.peek 0)).advance)

/-- `Alloc(n)`, 44_memory.md R152. -/
def execAlloc (n : Word) (s : State) : Result := .next ((s.memAlloc n).advance)

/-- `Free(a)`, 44_memory.md R153. -/
def execFree (a : Word) (s : State) : Result := .next ((s.memFree a).advance)

end Sys2Proof.Machine
end

