-- ==== Sys2Proof/Machine/Stack.lean ====
section
/-! DEFINITION. Stack manipulation: `Push`, `Pop`, `Dup`, `Swap`, `Rot`, `Clear` (40_stack.md). -/

namespace Sys2Proof.Machine

/-- `Push(k)`, 40_stack.md R101. -/
def execPush (k : Word) (s : State) : Result := pushing k s

/-- `Pop`, 40_stack.md R102. -/
def execPop (s : State) : Result :=
  if s.depth < 1 then fail s .stackUnderflow
  else .next ((s.drop 1).advance)

/-- `Dup`, 40_stack.md R103. -/
def execDup (s : State) : Result :=
  if s.depth < 1 then fail s .stackUnderflow
  else if s.stackFull then fail s .stackOverflow
  else .next ((s.push (s.peek 0)).advance)

/-- `Swap`, 40_stack.md R104: `( a b -- b a )`. -/
def execSwap (s : State) : Result :=
  if s.depth < 2 then fail s .stackUnderflow
  else .next ((((s.drop 2).push (s.peek 0)).push (s.peek 1)).advance)

/-- `Rot`, 40_stack.md R105: `( a b c -- b c a )`. -/
def execRot (s : State) : Result :=
  if s.depth < 3 then fail s .stackUnderflow
  else .next (((((s.drop 3).push (s.peek 1)).push (s.peek 0)).push (s.peek 2)).advance)

/-- `Clear`, 40_stack.md R106. -/
def execClear (s : State) : Result := .next ((s.drop s.depth).advance)

end Sys2Proof.Machine
end

