-- ==== Sys2Proof/Machine/Dispatch.lean ====
section
/-! DEFINITION. The dispatch of an instruction to its meaning (30_encoding.md R81), one arm per constructor. -/

namespace Sys2Proof.Machine

def exec (i : Instr) (s : State) : Host.Outcome State Fault Refusal :=
  match i with
  | .push k => Sys2Proof.Machine.execPush k s
  | .pop => Sys2Proof.Machine.execPop s
  | .dup => Sys2Proof.Machine.execDup s
  | .swap => Sys2Proof.Machine.execSwap s
  | .rot => Sys2Proof.Machine.execRot s
  | .clear => Sys2Proof.Machine.execClear s
  | .add => Sys2Proof.Machine.execAdd s
  | .sub => Sys2Proof.Machine.execSub s
  | .mul => Sys2Proof.Machine.execMul s
  | .div => Sys2Proof.Machine.execDiv s
  | .rem => Sys2Proof.Machine.execRem s
  | .neg => Sys2Proof.Machine.execNeg s
  | .inc => Sys2Proof.Machine.execInc s
  | .dec => Sys2Proof.Machine.execDec s
  | .eq => Sys2Proof.Machine.execEq s
  | .ne => Sys2Proof.Machine.execNe s
  | .le => Sys2Proof.Machine.execLe s
  | .ge => Sys2Proof.Machine.execGe s
  | .lt => Sys2Proof.Machine.execLt s
  | .gt => Sys2Proof.Machine.execGt s
  | .jump id => Sys2Proof.Machine.execJump id s
  | .brt id => Sys2Proof.Machine.execBrt id s
  | .brz id => Sys2Proof.Machine.execBrz id s
  | .call id => Sys2Proof.Machine.execCall id s
  | .ret => Sys2Proof.Machine.execRet s
  | .retV k => Sys2Proof.Machine.execRetV k s
  | .label id => Sys2Proof.Machine.execLabel id s
  | .halt => Sys2Proof.Machine.execHalt s
  | .load a => Sys2Proof.Machine.execLoad a s
  | .store a => Sys2Proof.Machine.execStore a s
  | .alloc n => Sys2Proof.Machine.execAlloc n s
  | .free a => Sys2Proof.Machine.execFree a s
  | .print => Sys2Proof.Machine.execPrint s
  | .read => Sys2Proof.Machine.execRead s
  | .write m => Sys2Proof.Machine.execWrite m s
  | .scan => Sys2Proof.Machine.execScan s
  | .and => Sys2Proof.Machine.execAnd s
  | .or => Sys2Proof.Machine.execOr s
  | .xor => Sys2Proof.Machine.execXor s
  | .not => Sys2Proof.Machine.execNot s
  | .shl => Sys2Proof.Machine.execShl s
  | .shr => Sys2Proof.Machine.execShr s
  | .bool => Sys2Proof.Machine.execBool s
  | .dump => Sys2Proof.Machine.execDump s
  | .trace f => Sys2Proof.Machine.execTrace f s

end Sys2Proof.Machine
end

