-- ==== Sys2Proof/Machine/Labels.lean ====
section
/-! DEFINITION. Label resolution at load time (70_reset_and_hazards.md R232, R233) and the placing of one word in the
program store. -/

namespace Sys2Proof.Machine

/-- The scan of R232 from index `i` on, with the table built so far. It answers the table and, where a marker repeats an
identifier, that marker's index; the scan then stops and the earlier entry is kept (R233). -/
def scanLabels (i : Nat) (lt : LabelTable) : List InstrWord → LabelTable × Option Nat
  | [] => (lt, none)
  | w :: ws =>
    if opcodeOf w = 0x46#8 then
      if (LabelTable.find lt (operandOf w)).isSome then (lt, some i)
      else scanLabels (i + 1) (lt ++ [(operandOf w, BitVec.ofNat 32 i)]) ws
    else scanLabels (i + 1) lt ws

/-- The Label Table of a program, and the index of its first repeated marker if it has one (R232, R233). -/
def resolveLabels (program : List InstrWord) : LabelTable × Option Nat := scanLabels 0 [] program

/-- The program with the word `w` at index `n`, and zero words at the indices below `n` that it did not have. -/
def placeWord (w : InstrWord) : Nat → List InstrWord → List InstrWord
  | 0, [] => [w]
  | 0, _ :: ws => w :: ws
  | n + 1, [] => 0 :: placeWord w n []
  | n + 1, v :: ws => v :: placeWord w n ws

/-- The program store with `w` at `PC`, its Label Table with it (LT is a function of PROG, 10_state.md R31), and nothing
pending and no fault, so that the status is Ready (10_state.md R36). It stands for a load from outside. -/
def State.installAtPc (s : State) (w : InstrWord) : State :=
  { s with
    prog := placeWord w s.pc.toNat s.prog
    labels := (resolveLabels (placeWord w s.pc.toNat s.prog)).1
    pending := .none
    faultKind := .none }

end Sys2Proof.Machine
end

