-- ==== Sys2Proof/Machine/Step.lean ====
section
/-! DEFINITION. The command STEP (10_state.md R41, R45). -/

namespace Sys2Proof.Machine

/-- STEP: one instruction when the status is Ready, nothing otherwise (10_state.md R41, R45). A word that does not
decode raises IllegalInstruction (60_exceptions.md R207). -/
def step (s : State) : Host.Outcome State Fault Refusal :=
  match s.status with
  | .ready =>
    match s.fetch with
    | none => .fault .fetchOutsideProgram
    | some w =>
      match decode w with
      | .ok i => exec i s
      | .error _ => fail s .illegalInstruction
  | .awaitingInput => .next s
  | .halted => .next s
  | .faulted => .next s

/-- `s` with the one instruction word `w` placed where the next STEP fetches. -/
def State.withFetchWord (s : State) (nbits w : Nat) : State := s.installAtPc (tableWord nbits w)

end Sys2Proof.Machine
end

