-- ==== Sys2Proof/Machine/Units.lean ====
section
/-! DEFINITION. The dispatch classes of 30_encoding.md R81: the unit that the decoder sends an instruction to. The
partition describes the block and has no effect on any meaning. -/

namespace Sys2Proof.Machine

/-- The units of R81. -/
inductive DispatchUnit where
  | stack
  | aluBinary
  | aluUnary
  | control
  | memory
  | io
  | debug
deriving DecidableEq, Repr

/-- The unit of an opcode, by the ranges of R81; none where the opcode is unassigned. -/
def unitOfOpcode (op : Opcode) : Option DispatchUnit :=
  let n := op.toNat
  if 0x10 ≤ n ∧ n ≤ 0x15 then some .stack
  else if (0x20 ≤ n ∧ n ≤ 0x24) ∨ (0x30 ≤ n ∧ n ≤ 0x35) ∨ (0x70 ≤ n ∧ n ≤ 0x72) ∨ n = 0x74 ∨ n = 0x75 then
    some .aluBinary
  else if (0x25 ≤ n ∧ n ≤ 0x27) ∨ n = 0x73 ∨ n = 0x76 then some .aluUnary
  else if 0x40 ≤ n ∧ n ≤ 0x47 then some .control
  else if 0x50 ≤ n ∧ n ≤ 0x53 then some .memory
  else if 0x60 ≤ n ∧ n ≤ 0x63 then some .io
  else if n = 0x80 ∨ n = 0x81 then some .debug
  else none

/-- The unit of an instruction: that of its opcode. -/
def unitOf (i : Instr) : Option DispatchUnit := unitOfOpcode (opcodeOf (encode i))

end Sys2Proof.Machine
end

