-- ==== Sys2Proof/Machine/HostCommands.lean ====
section
/-! DEFINITION. The host's commands and views beside STEP (10_state.md R40 to R44, 70_reset_and_hazards.md R230 to
R233). Each command is one atomic transaction; two commands never overlap (R240), so there is no transition for that. -/

namespace Sys2Proof.Machine

/-- RESET (70_reset_and_hazards.md R230). -/
def resetCommand (s : State) : State := State.resetOf s.cfg

/-- The state LOAD leaves for a program it accepts: RESET, then the program and its Label Table, then the
DuplicateLabel fault where the scan met one (70_reset_and_hazards.md R231 to R233). -/
def loaded (program : List InstrWord) (s : State) : State :=
  let base := { resetCommand s with prog := program, labels := (resolveLabels program).1 }
  match (resolveLabels program).2 with
  | none => base
  | some j => { base with faultKind := .duplicateLabel, faultPc := BitVec.ofNat 32 j }

/-- LOAD(P); a program longer than `MAX_PROG_LEN` is outside the interface and refused (70_reset_and_hazards.md R231). -/
def loadCommand (program : List InstrWord) (s : State) : Result :=
  if program.length ≤ s.cfg.maxProgLen.val then .next (loaded program s) else .refused .programTooLong

/-- DELIVER(v) (10_state.md R43): it completes a `Read` by pushing the word, completes a `Scan` ignoring it, and does
nothing when nothing is pending. -/
def deliverCommand (v : Word) (s : State) : State :=
  match s.pending with
  | .numeric => (s.push v).request .none
  | .line => s.request .none
  | .none => s

/-- The commands that always return (10_state.md R40); RUN is below. -/
inductive HostCommand where
  | reset
  | load (program : List InstrWord)
  | step
  | deliver (v : Word)
deriving DecidableEq, Repr

/-- The effect of one command. -/
def command (c : HostCommand) (s : State) : Result :=
  match c with
  | .reset => .next (resetCommand s)
  | .load program => loadCommand program s
  | .step => step s
  | .deliver v => .next (deliverCommand v s)

/-- RUN cut off after `n` STEPs: `while STATUS == Ready do STEP` (10_state.md R42). -/
def runFor : Nat → State → Result
  | 0, s => .next s
  | n + 1, s =>
    match s.status with
    | .ready =>
      match step s with
      | .next t => runFor n t
      | .fault r => .fault r
      | .refused r => .refused r
    | .awaitingInput => .next s
    | .halted => .next s
    | .faulted => .next s

/-- RUN from the first state returns in the second (10_state.md R42). RUN does not return from a state where no such
second state exists. -/
inductive RunReturns : State → State → Prop where
  | stop (s : State) (h : s.status ≠ .ready) : RunReturns s s
  | next (s t u : State) (h : s.status = .ready) (hs : step s = .next t) (hr : RunReturns t u) : RunReturns s u

/-- What the host can read between commands (10_state.md R44). Data memory and the Label Table are not in it. -/
structure View where
  prog : List InstrWord
  progLen : Index
  os : List Word
  pc : Index
  status : Status
  pending : Pending
  faultKind : FaultKind
  faultPc : Index
  trace : Bool
  cs : List Index
deriving DecidableEq, Repr

/-- The read-only views; reading changes no state (10_state.md R44). -/
def State.view (s : State) : View where
  prog := s.prog
  progLen := s.progLen
  os := s.os
  pc := s.pc
  status := s.status
  pending := s.pending
  faultKind := s.faultKind
  faultPc := s.faultPc
  trace := s.trace
  cs := s.cs

end Sys2Proof.Machine
end

