-- ==== Sys2Proof/Safety.lean ====
section
/-! DEFINITION. The terms in which claims are made: the invariant of 10_state.md R35, the table of faults
(60_exceptions.md R202), the table of stack effects (30_encoding.md R80), and the shapes that the instruction rules
share. -/

namespace Sys2Proof.Machine

/-- `n <= STACK_DEPTH`, or `n <= CALL_DEPTH`: so many elements fit (00_scope.md R7). -/
def fits (n : Nat) (c : Capacity) : Prop :=
  match c with
  | .finite k => n ≤ k
  | .inf => True

/-- The state invariants of 10_state.md R35, true after RESET, after LOAD and after every command, with what an
inductive proof of them needs beside them: the program's length, the memory's canonical form, and the room that `Read`
leaves for the word to come (45_io.md R162). -/
structure State.Inv (s : State) : Prop where
  /-- R35 (a): `PC <= L`. -/
  pc_le : s.pc.toNat ≤ s.prog.length
  /-- 10_state.md R29: `L <= MAX_PROG_LEN`. -/
  prog_le : s.prog.length ≤ s.cfg.maxProgLen.val
  /-- R35 (b), operand stack. -/
  os_fits : fits s.os.length s.cfg.stackDepth
  /-- R35 (b), call stack. -/
  cs_fits : fits s.cs.length s.cfg.callDepth
  /-- R35 (c): every element of `CS` is in `1 .. L`. -/
  cs_range : ∀ r ∈ s.cs, 1 ≤ r.toNat ∧ r.toNat ≤ s.prog.length
  /-- 10_state.md R31: `LT` is a function of `PROG` (R35 (d) follows from it). -/
  labels_eq : s.labels = (resolveLabels s.prog).1
  /-- R35 (e): a fault and a pending request never hold together. -/
  fault_or_pending : s.faultKind ≠ .none → s.pending = .none
  /-- 45_io.md R162: a numeric request has room for its word. -/
  numeric_room : s.pending = .numeric → fits (s.os.length + 1) s.cfg.stackDepth
  /-- 20_memory.md R50, R54: the canonical form of `MEM`. -/
  mem_wf : Memory.wf s.mem

/-- Index `j` of the program holds a marker whose identifier a marker at a lower index carries too: a second occurrence
(70_reset_and_hazards.md R233). -/
def RepeatsMarker (program : List InstrWord) (j : Nat) : Prop :=
  ∃ id, program[j]? = some (encode (.label id)) ∧ ∃ i, i < j ∧ program[i]? = some (encode (.label id))

/-- The operand stack is full: `depth == STACK_DEPTH`. -/
abbrev OsFull (s : State) : Prop := s.cfg.stackDepth = .finite s.os.length

/-- The call stack is full: `cdepth == CALL_DEPTH`. -/
abbrev CsFull (s : State) : Prop := s.cfg.callDepth = .finite s.cs.length

/-- The instruction raises `k` at `s`: only the fault pair changes (60_exceptions.md R204). -/
def RaisesAt (i : Instr) (s : State) (k : FaultKind) : Prop :=
  exec i s = .next { s with faultKind := k, faultPc := s.pc }

/-- Every fault an instruction can raise, first tested first (60_exceptions.md R202). -/
def faultsOf : Instr → List FaultKind
  | .push _ | .load _ | .read => [.stackOverflow]
  | .pop | .swap | .rot | .store _ => [.stackUnderflow]
  | .dup => [.stackUnderflow, .stackOverflow]
  | .add | .sub | .mul | .neg | .inc | .dec => [.stackUnderflow]
  | .eq | .ne | .le | .ge | .lt | .gt => [.stackUnderflow]
  | .and | .or | .xor | .not | .shl | .shr | .bool => [.stackUnderflow]
  | .div | .rem => [.stackUnderflow, .arithmeticError]
  | .jump _ => [.unknownLabel]
  | .brt _ | .brz _ => [.stackUnderflow, .unknownLabel]
  | .call _ => [.unknownLabel, .callStackOverflow]
  | .ret => [.callStackUnderflow]
  | .retV _ => [.callStackUnderflow, .stackOverflow]
  | .clear | .label _ | .halt | .alloc _ | .free _ | .print | .write _ | .scan | .dump | .trace _ => []

/-- A row of the stack-effect table of 30_encoding.md R80. -/
structure StackEffect where
  need : Nat
  pops : Nat
  pushes : Nat
  room : Bool
deriving DecidableEq, Repr

/-- The table of 30_encoding.md R80; `depth` is the depth before, which `Clear` pops whole. -/
def stackEffect (depth : Nat) : Instr → StackEffect
  | .push _ => ⟨0, 0, 1, true⟩
  | .pop => ⟨1, 1, 0, false⟩
  | .dup => ⟨1, 0, 1, true⟩
  | .swap => ⟨2, 2, 2, false⟩
  | .rot => ⟨3, 3, 3, false⟩
  | .clear => ⟨0, depth, 0, false⟩
  | .add | .sub | .mul | .div | .rem => ⟨2, 2, 1, false⟩
  | .neg | .inc | .dec => ⟨1, 1, 1, false⟩
  | .eq | .ne | .le | .ge | .lt | .gt => ⟨2, 2, 1, false⟩
  | .and | .or | .xor | .shl | .shr => ⟨2, 2, 1, false⟩
  | .not | .bool => ⟨1, 1, 1, false⟩
  | .jump _ => ⟨0, 0, 0, false⟩
  | .brt _ | .brz _ => ⟨1, 1, 0, false⟩
  | .call _ | .ret => ⟨0, 0, 0, false⟩
  | .retV _ => ⟨0, 0, 1, true⟩
  | .label _ | .halt => ⟨0, 0, 0, false⟩
  | .load _ => ⟨0, 0, 1, true⟩
  | .store _ => ⟨1, 1, 0, false⟩
  | .alloc _ | .free _ => ⟨0, 0, 0, false⟩
  | .print => ⟨0, 0, 0, false⟩
  | .read => ⟨0, 0, 0, true⟩
  | .write _ | .scan | .dump | .trace _ => ⟨0, 0, 0, false⟩

/-- The shape of a binary rule of the ALU that only an underflow stops: its word, the fault, and the result with
everything else unchanged (41_arithmetic.md R110, 42_comparison.md R125, 46_bitwise.md R170). -/
def BinaryRule (i : Instr) (w : InstrWord) (f : Word → Word → Word) : Prop :=
  encode i = w ∧ ∀ s : State,
    (s.os.length < 2 → RaisesAt i s .stackUnderflow) ∧
    ∀ below lhs rhs, s.os = below ++ [lhs, rhs] →
      exec i s = .next { s with os := below ++ [f lhs rhs], pc := s.pc + 1 }

/-- The shape of `Div` and `Rem`: a zero right operand is an ArithmeticError that leaves both operands in place
(41_arithmetic.md R114, R115). -/
def DividingRule (i : Instr) (w : InstrWord) (f : Int → Int → Int) : Prop :=
  encode i = w ∧ ∀ s : State,
    (s.os.length < 2 → RaisesAt i s .stackUnderflow) ∧
    ∀ below lhs rhs, s.os = below ++ [lhs, rhs] →
      (rhs.toInt = 0 → RaisesAt i s .arithmeticError) ∧
      (rhs.toInt ≠ 0 →
        exec i s = .next { s with os := below ++ [BitVec.ofInt 32 (f lhs.toInt rhs.toInt)], pc := s.pc + 1 })

/-- The shape of a unary rule of the ALU (41_arithmetic.md R110, 46_bitwise.md R170). -/
def UnaryRule (i : Instr) (w : InstrWord) (f : Word → Word) : Prop :=
  encode i = w ∧ ∀ s : State,
    (s.os.length < 1 → RaisesAt i s .stackUnderflow) ∧
    ∀ below a, s.os = below ++ [a] →
      exec i s = .next { s with os := below ++ [f a], pc := s.pc + 1 }

/-- The shape of a conditional branch: underflow first, then the label, then the test; the value is consumed whether or
not the branch fires (43_control.md R137, R138). -/
def BranchRule (i : Word → Instr) (op : Opcode) (fires : Word → Prop) : Prop :=
  ∀ id, encode (i id) = op ++ id ∧ ∀ s : State,
    (s.os.length < 1 → RaisesAt (i id) s .stackUnderflow) ∧
    ∀ below v, s.os = below ++ [v] →
      (s.lookup id = none → RaisesAt (i id) s .unknownLabel) ∧
      ∀ t, s.lookup id = some t →
        (fires v → exec (i id) s = .next { s with os := below, pc := t }) ∧
        (¬ fires v → exec (i id) s = .next { s with os := below, pc := s.pc + 1 })

end Sys2Proof.Machine
end

