-- ==== Sys2Proof/WellFormed.lean ====
section
/-! DEFINITION. What is well formed: an instruction word (in the match/mask form of 30_encoding.md R78) and a program
that a LOAD accepts and resolves (70_reset_and_hazards.md R231, R233). Every value of `Instr` is well formed, because
each payload has its field's width and R72 admits every value of it.

This file reads words by mask and match only, and shares nothing with the decoder of Decode.lean, so that each is a
check of the other. -/

namespace Sys2Proof

/-- One row of the opcode map in match/mask form: `(w AND mask) == value` (30_encoding.md R78). -/
structure EncodingRow where
  value : InstrWord
  mask : InstrWord
deriving DecidableEq, Repr

/-- A row of format N: every operand bit is fixed at 0 (30_encoding.md R78). -/
def EncodingRow.formatN (op : Opcode) : EncodingRow := ⟨op ++ 0#32, 0xFFFFFFFFFF#40⟩

/-- A row of format K, A, L or M: the operand field is free (30_encoding.md R78). -/
def EncodingRow.formatPayload (op : Opcode) : EncodingRow := ⟨op ++ 0#32, 0xFF00000000#40⟩

/-- A row of format F: bit 0 is free, bits 31 to 1 are fixed at 0 (30_encoding.md R78). -/
def EncodingRow.formatF (op : Opcode) : EncodingRow := ⟨op ++ 0#32, 0xFFFFFFFFFE#40⟩

def EncodingRow.accepts (r : EncodingRow) (w : InstrWord) : Bool := w &&& r.mask == r.value

open EncodingRow

/-- Stack manipulation, 0x10 to 0x15. -/
def stackRows : List EncodingRow :=
  [formatPayload 0x10, formatN 0x11, formatN 0x12, formatN 0x13, formatN 0x14, formatN 0x15]

/-- Arithmetic, 0x20 to 0x27. -/
def arithmeticRows : List EncodingRow :=
  [formatN 0x20, formatN 0x21, formatN 0x22, formatN 0x23, formatN 0x24, formatN 0x25, formatN 0x26, formatN 0x27]

/-- Comparison, 0x30 to 0x35. -/
def comparisonRows : List EncodingRow :=
  [formatN 0x30, formatN 0x31, formatN 0x32, formatN 0x33, formatN 0x34, formatN 0x35]

/-- Control flow, 0x40 to 0x47. -/
def controlRows : List EncodingRow :=
  [formatPayload 0x40, formatPayload 0x41, formatPayload 0x42, formatPayload 0x43, formatN 0x44, formatPayload 0x45,
    formatPayload 0x46, formatN 0x47]

/-- Memory, 0x50 to 0x53. -/
def memoryRows : List EncodingRow :=
  [formatPayload 0x50, formatPayload 0x51, formatPayload 0x52, formatPayload 0x53]

/-- Input/output, 0x60 to 0x63. -/
def ioRows : List EncodingRow := [formatN 0x60, formatN 0x61, formatPayload 0x62, formatN 0x63]

/-- Bitwise/logical, 0x70 to 0x76. -/
def bitwiseRows : List EncodingRow :=
  [formatN 0x70, formatN 0x71, formatN 0x72, formatN 0x73, formatN 0x74, formatN 0x75, formatN 0x76]

/-- Debugging, 0x80 and 0x81. -/
def debugRows : List EncodingRow := [formatN 0x80, formatF 0x81]

/-- The 45 rows of opcode_table.json (30_encoding.md R77). -/
def encodingTable : List EncodingRow :=
  stackRows ++ arithmeticRows ++ comparisonRows ++ controlRows ++ memoryRows ++ ioRows ++ bitwiseRows ++ debugRows

/-- The word is an instruction's: some row of the opcode map accepts it (30_encoding.md R78, R79). -/
def WellFormed.word (w : InstrWord) : Bool := encodingTable.any (fun r => r.accepts w)

/-- The label identifiers that the markers of a program define, in program order: the operand fields of its words with
opcode 0x46 (70_reset_and_hazards.md R232). -/
def markerIds (program : List InstrWord) : List Word :=
  (program.filter (fun w => w &&& 0xFF00000000#40 == 0x4600000000#40)).map (fun w => w.setWidth 32)

/-- The program is one that LOAD is given and resolves without a fault: it is no longer than `MAX_PROG_LEN`
(70_reset_and_hazards.md R231) and no two of its markers carry the same identifier (R233). -/
def WellFormed.program (cfg : Config) (program : List InstrWord) : Bool :=
  decide (program.length ≤ cfg.maxProgLen.val) && decide (markerIds program).Nodup

end Sys2Proof
end

