-- ==== Sys2Proof/Certificates/Slice0/Obligations.lean ====
section
/-! DEFINITION. The statements for the provers. Each docstring names the rules of spec/ a statement formalises. A
statement whose conclusion is `exec i s = .next { s with … }` says the result of the instruction, that it completes, and
its frame at once: every field that is not listed keeps its value. -/

open Sys2Proof Sys2Proof.Machine

/-! ### Encoding -/

/-- 30_encoding.md R78 (decisions D2, D3 of the spec): "`Decode(Encode(i)) = i` for every instruction `i`, and
`Encode(Decode(w)) = w` for every `w` that is not Illegal". -/
def Obligations.DecodeAndEncodeAreInverse : Prop :=
  (∀ i, decode (encode i) = .ok i) ∧ ∀ w i, decode w = .ok i → encode i = w

/-- 30_encoding.md R77, R78 (decisions D2, D3 of the spec): decoding accepts a word exactly when one of the 45 rows of
the opcode map, read by match and mask, accepts it, and no two rows can match the same word. -/
def Obligations.DecodeAcceptsExactlyTheOpcodeMap : Prop :=
  encodingTable.length = 45 ∧
  (∀ w, (∃ i, decode w = .ok i) ↔ ∃ r ∈ encodingTable, r.accepts w = true) ∧
  ∀ w, ∀ r ∈ encodingTable, ∀ r' ∈ encodingTable, r.accepts w = true → r'.accepts w = true → r = r'

/-- 30_encoding.md R79 (decision D4 of the spec): which words are illegal, (a) to (c), and that each raises
IllegalInstruction when a step fetches it. -/
def Obligations.IllegalWordsAreTheListedOnes : Prop :=
  (∀ w : InstrWord, (∃ e, decode w = .error e) ↔
    let op := (w.extractLsb' 32 8).toNat
    let x := w.extractLsb' 0 32
    (op ≤ 0x0F ∨ (0x16 ≤ op ∧ op ≤ 0x1F) ∨ (0x28 ≤ op ∧ op ≤ 0x2F) ∨ (0x36 ≤ op ∧ op ≤ 0x3F) ∨
      (0x48 ≤ op ∧ op ≤ 0x4F) ∨ (0x54 ≤ op ∧ op ≤ 0x5F) ∨ (0x64 ≤ op ∧ op ≤ 0x6F) ∨ (0x77 ≤ op ∧ op ≤ 0x7F) ∨
      0x82 ≤ op) ∨
    (((0x11 ≤ op ∧ op ≤ 0x15) ∨ (0x20 ≤ op ∧ op ≤ 0x27) ∨ (0x30 ≤ op ∧ op ≤ 0x35) ∨ op = 0x44 ∨ op = 0x47 ∨
      op = 0x60 ∨ op = 0x61 ∨ op = 0x63 ∨ (0x70 ≤ op ∧ op ≤ 0x76) ∨ op = 0x80) ∧ x ≠ 0) ∨
    (op = 0x81 ∧ x.extractLsb' 1 31 ≠ 0)) ∧
  (∃ e, decode 0x0000000000#40 = .error e) ∧ (∃ e, decode 0xFFFFFFFFFF#40 = .error e) ∧
  ∀ (s : State) w e, s.status = .ready → s.fetch = some w → decode w = .error e →
    step s = .next { s with faultKind := .illegalInstruction, faultPc := s.pc }

/-- 30_encoding.md R77, R78: a word of each group, written bit by bit from the opcode map, decodes to its instruction.
-/
def Obligations.SampleWordsDecodeToTheirInstructions : Prop :=
  decode 0b0001000011111111111111111111111111111111#40 = .ok (.push 0xFFFFFFFF#32) ∧
  decode 0b0010000100000000000000000000000000000000#40 = .ok .sub ∧
  decode 0b0011010000000000000000000000000000000000#40 = .ok .lt ∧
  decode 0b0100001100000000000000000000000000000001#40 = .ok (.call 1) ∧
  decode 0b0101000100000000000000000000000000000101#40 = .ok (.store 5) ∧
  decode 0b0110001000000000000000000000000000000111#40 = .ok (.write 7) ∧
  decode 0b0111010100000000000000000000000000000000#40 = .ok .shr ∧
  decode 0b1000000100000000000000000000000000000001#40 = .ok (.trace true)

/-- 30_encoding.md R81 (decision D2 of the spec): every instruction is sent to one unit; what goes to the binary ALU
takes two elements and leaves one, what goes to the unary ALU takes one and leaves one, and nothing else of the ALU's
shape goes anywhere else. -/
def Obligations.DispatchUnitsFitTheirStackEffects : Prop :=
  ∀ i, (∃ u, unitOf i = some u) ∧
    (unitOf i = some .aluBinary ↔ i ∈ [.add, .sub, .mul, .div, .rem, .eq, .ne, .le, .ge, .lt, .gt, .and, .or, .xor,
      .shl, .shr]) ∧
    (unitOf i = some .aluUnary ↔ i ∈ [.neg, .inc, .dec, .not, .bool]) ∧
    (∀ d, unitOf i = some .aluBinary → stackEffect d i = ⟨2, 2, 1, false⟩) ∧
    ∀ d, unitOf i = some .aluUnary → stackEffect d i = ⟨1, 1, 1, false⟩

/-! ### The step cycle, the status, reset -/

/-- 10_state.md R45: in Ready a step fetches `PROG[PC]` and runs the decoded instruction. -/
def Obligations.StepRunsTheDecodedInstruction : Prop :=
  ∀ s w i, s.faultKind = .none → s.pending = .none → s.prog[s.pc.toNat]? = some w → decode w = .ok i →
    step s = exec i s

/-- 60_exceptions.md R207, with R204 (decision D4 of the spec): a fetched word that does not decode raises
IllegalInstruction. -/
def Obligations.IllegalWordRaisesIllegalInstruction : Prop :=
  ∀ s w e, s.faultKind = .none → s.pending = .none → s.prog[s.pc.toNat]? = some w → decode w = .error e →
    step s = .next { s with faultKind := .illegalInstruction, faultPc := s.pc }

/-- 10_state.md R41 (decision D28 of the spec): with Ready, one instruction by the cycle of R45; with any other status,
nothing changes. -/
def Obligations.StepExecutesOneInstructionOrNothing : Prop :=
  ∀ s : State,
    (s.status = .awaitingInput ∨ s.status = .halted ∨ s.status = .faulted → step s = .next s) ∧
    ∀ w, s.status = .ready → s.prog[s.pc.toNat]? = some w →
      (∀ i, decode w = .ok i → step s = exec i s) ∧
      ∀ e, decode w = .error e → step s = .next { s with faultKind := .illegalInstruction, faultPc := s.pc }

/-- 10_state.md R36 (decision D22 of the spec): the status is this function of the stored state, in this priority, with
these port codes; a pending request at `PC == L` is AwaitingInput, and Halted after the delivery. With it, the port
codes of `PENDING` (10_state.md R27) and the codes of the fault kinds (60_exceptions.md R201, decision D23). -/
def Obligations.StatusFollowsItsPriority : Prop :=
  (∀ s : State, (s.status = .faulted ↔ s.faultKind ≠ .none) ∧
    (s.status = .awaitingInput ↔ s.faultKind = .none ∧ s.pending ≠ .none) ∧
    (s.status = .halted ↔ s.faultKind = .none ∧ s.pending = .none ∧ s.pc.toNat = s.prog.length) ∧
    (s.status = .ready ↔ s.faultKind = .none ∧ s.pending = .none ∧ s.pc.toNat ≠ s.prog.length) ∧
    (∀ v, s.status = .awaitingInput → s.pc.toNat = s.prog.length → (deliverCommand v s).status = .halted)) ∧
  Status.ready.code = 0 ∧ Status.awaitingInput.code = 1 ∧ Status.halted.code = 2 ∧ Status.faulted.code = 3 ∧
  Pending.none.code = 0 ∧ Pending.numeric.code = 1 ∧ Pending.line.code = 2 ∧
  FaultKind.none.code = 0 ∧ FaultKind.stackUnderflow.code = 1 ∧ FaultKind.arithmeticError.code = 2 ∧
  FaultKind.unknownLabel.code = 3 ∧ FaultKind.duplicateLabel.code = 4 ∧ FaultKind.callStackUnderflow.code = 5 ∧
  FaultKind.inputParseError.code = 6 ∧ FaultKind.stackOverflow.code = 7 ∧ FaultKind.callStackOverflow.code = 8 ∧
  FaultKind.illegalInstruction.code = 9

/-- 10_state.md R37, which the spec marks as its own inference "[derived: from rules R36, R41, R43 ...]": the state
machine of the engine. Ready goes by STEP to any status, AwaitingInput goes by DELIVER to Ready or Halted and by STEP
nowhere, Halted and Faulted are terminal, RESET and LOAD leave any state. -/
def Obligations.StatusTransitionsAreThoseOfTheDiagram : Prop :=
  (∀ u : Status, ∃ s t : State, s.status = .ready ∧ step s = .next t ∧ t.status = u) ∧
  ∀ c (s t : State), command c s = .next t →
    (c = .step → s.status ≠ .ready → t = s) ∧
    (∀ v, c = .deliver v →
      (s.status = .awaitingInput → t.status = .ready ∨ t.status = .halted) ∧
      (s.status = .ready ∨ s.status = .halted → t = s) ∧
      (s.status = .faulted → t.status = .faulted)) ∧
    (c = .reset → t.status = .halted) ∧
    ∀ program, c = .load program →
      (t.status = .faulted ↔ ∃ j, RepeatsMarker program j) ∧
      (t.status = .halted ↔ program = []) ∧
      (t.status = .ready ↔ program ≠ [] ∧ ∀ j, ¬ RepeatsMarker program j)

/-- 70_reset_and_hazards.md R230 (decision D35 of the spec): what RESET leaves, from any state; the status is then
Halted and STEP does nothing; and the state at power-on is what RESET leaves. That the parameters keep their values,
`t.cfg = s.cfg`, is the model's clause (log entry 2): R230 does not name them. -/
def Obligations.ResetLeavesEveryElementAtItsResetValue : Prop :=
  (∀ s t : State, command .reset s = .next t →
    t.cfg = s.cfg ∧ t.prog = [] ∧ t.progLen = 0 ∧ (∀ id, t.lookup id = none) ∧ t.pc = 0 ∧ t.os = [] ∧ t.cs = [] ∧
    (∀ a : Word, t.mem.entry a.toNat = none) ∧ t.pending = .none ∧ t.trace = false ∧ t.faultKind = .none ∧
    t.faultPc = 0 ∧ t.out = [] ∧ t.status = .halted ∧ step t = .next t) ∧
  command .reset State.reset = .next State.reset

/-! ### Stack manipulation -/

/-- 40_stack.md R101. -/
def Obligations.PushAppendsItsConstant : Prop :=
  ∀ k, encode (.push k) = 0x10#8 ++ k ∧ ∀ s,
    (OsFull s → RaisesAt (.push k) s .stackOverflow) ∧
    (¬ OsFull s → exec (.push k) s = .next { s with os := s.os ++ [k], pc := s.pc + 1 })

/-- 40_stack.md R102, R106 (decision D38 of the spec). -/
def Obligations.PopAndClearRemoveElements : Prop :=
  encode .pop = 0x1100000000#40 ∧ encode .clear = 0x1500000000#40 ∧ ∀ s,
    (s.os.length < 1 → RaisesAt .pop s .stackUnderflow) ∧
    (∀ below a, s.os = below ++ [a] → exec .pop s = .next { s with os := below, pc := s.pc + 1 }) ∧
    exec .clear s = .next { s with os := [], pc := s.pc + 1 }

/-- 40_stack.md R103 (decision D13 of the spec): the underflow is tested before the overflow. -/
def Obligations.DupCopiesTheTop : Prop :=
  encode .dup = 0x1200000000#40 ∧ ∀ s,
    (s.os.length < 1 → RaisesAt .dup s .stackUnderflow) ∧
    ∀ below a, s.os = below ++ [a] →
      (OsFull s → RaisesAt .dup s .stackOverflow) ∧
      (¬ OsFull s → exec .dup s = .next { s with os := below ++ [a, a], pc := s.pc + 1 })

/-- 40_stack.md R104, R105 (decisions D13, D14 of the spec): `( a b -- b a )` and `( a b c -- b c a )`. -/
def Obligations.SwapAndRotPermuteTheTop : Prop :=
  encode .swap = 0x1300000000#40 ∧ encode .rot = 0x1400000000#40 ∧ ∀ s,
    (s.os.length < 2 → RaisesAt .swap s .stackUnderflow) ∧
    (∀ below a b, s.os = below ++ [a, b] →
      exec .swap s = .next { s with os := below ++ [b, a], pc := s.pc + 1 }) ∧
    (s.os.length < 3 → RaisesAt .rot s .stackUnderflow) ∧
    ∀ below a b c, s.os = below ++ [a, b, c] →
      exec .rot s = .next { s with os := below ++ [b, c, a], pc := s.pc + 1 }

/-- 40_stack.md R104, R105, corner cases: two `Swap`s in a row and three `Rot`s in a row restore the stack. -/
def Obligations.SwapTwiceAndRotThriceRestore : Prop :=
  (∀ s : State, 2 ≤ s.os.length → ∃ t, exec .swap s = .next t ∧ exec .swap t = .next { s with pc := s.pc + 2 }) ∧
  ∀ s : State, 3 ≤ s.os.length → ∃ t u, exec .rot s = .next t ∧ exec .rot t = .next u ∧
    exec .rot u = .next { s with pc := s.pc + 3 }

/-! ### Arithmetic -/

/-- 41_arithmetic.md R111, R112, R113 (decision D15 of the spec): the exact result, wrapped. -/
def Obligations.AddSubMulWrap : Prop :=
  BinaryRule .add 0x2000000000#40 (fun lhs rhs => BitVec.ofInt 32 (lhs.toInt + rhs.toInt)) ∧
  BinaryRule .sub 0x2100000000#40 (fun lhs rhs => BitVec.ofInt 32 (lhs.toInt - rhs.toInt)) ∧
  BinaryRule .mul 0x2200000000#40 (fun lhs rhs => BitVec.ofInt 32 (lhs.toInt * rhs.toInt))

/-- 41_arithmetic.md R114, R115 (decision D16 of the spec). -/
def Obligations.DivAndRemTruncateOrRaise : Prop :=
  DividingRule .div 0x2300000000#40 (fun a b => Int.tdiv a b) ∧
  DividingRule .rem 0x2400000000#40 (fun a b => a - b * Int.tdiv a b)

/-- 41_arithmetic.md R116, R117, R118 (decision D15 of the spec). -/
def Obligations.NegIncDecWrap : Prop :=
  UnaryRule .neg 0x2500000000#40 (fun a => BitVec.ofInt 32 (0 - a.toInt)) ∧
  UnaryRule .inc 0x2600000000#40 (fun a => BitVec.ofInt 32 (a.toInt + 1)) ∧
  UnaryRule .dec 0x2700000000#40 (fun a => BitVec.ofInt 32 (a.toInt - 1))

/-- 41_arithmetic.md R119 (b), (c) (decision D16 of the spec): the quotient and the remainder that `Div` and `Rem` leave
belong together. The remainder is 0 or has the dividend's sign and is smaller than the divisor; the exact law holds but
for `INT_MIN / -1`, which gives `INT_MIN` and 0; modulo 2^32 it always holds. -/
def Obligations.QuotientAndRemainderBelongTogether : Prop :=
  ∀ (s : State) below lhs rhs, s.os = below ++ [lhs, rhs] → rhs.toInt ≠ 0 → ∃ q r : Word,
    exec .div s = .next { s with os := below ++ [q], pc := s.pc + 1 } ∧
    exec .rem s = .next { s with os := below ++ [r], pc := s.pc + 1 } ∧
    lhs = rhs * q + r ∧
    (r.toInt = 0 ∨ r.toInt.sign = lhs.toInt.sign) ∧
    r.toInt.natAbs < rhs.toInt.natAbs ∧
    (¬ (lhs = 0x80000000#32 ∧ rhs = 0xFFFFFFFF#32) →
      lhs.toInt = rhs.toInt * q.toInt + r.toInt ∧ (rhs.toInt * q.toInt).natAbs ≤ lhs.toInt.natAbs) ∧
    (lhs = 0x80000000#32 ∧ rhs = 0xFFFFFFFF#32 → q = 0x80000000#32 ∧ r = 0#32)

/-! ### Comparison -/

/-- 42_comparison.md R125 to R131 (decision D19 of the spec): the word 1 or 0, signed. -/
def Obligations.ComparisonsPushOneOrZero : Prop :=
  BinaryRule .eq 0x3000000000#40 (fun lhs rhs => if lhs.toInt = rhs.toInt then 1 else 0) ∧
  BinaryRule .ne 0x3100000000#40 (fun lhs rhs => if lhs.toInt ≠ rhs.toInt then 1 else 0) ∧
  BinaryRule .le 0x3200000000#40 (fun lhs rhs => if lhs.toInt ≤ rhs.toInt then 1 else 0) ∧
  BinaryRule .ge 0x3300000000#40 (fun lhs rhs => if lhs.toInt ≥ rhs.toInt then 1 else 0) ∧
  BinaryRule .lt 0x3400000000#40 (fun lhs rhs => if lhs.toInt < rhs.toInt then 1 else 0) ∧
  BinaryRule .gt 0x3500000000#40 (fun lhs rhs => if lhs.toInt > rhs.toInt then 1 else 0)

/-- 42_comparison.md R132: after a comparison, `Brt(id)` goes to `id` exactly when the relation held and `Brz(id)`
exactly when it did not. -/
def Obligations.BranchAfterComparisonFollowsTheRelation : Prop :=
  ∀ (i : Instr) (rel : Int → Int → Prop),
    (i = .eq ∧ rel = (· = ·)) ∨ (i = .ne ∧ rel = (· ≠ ·)) ∨ (i = .le ∧ rel = (· ≤ ·)) ∨ (i = .ge ∧ rel = (· ≥ ·)) ∨
      (i = .lt ∧ rel = (· < ·)) ∨ (i = .gt ∧ rel = (· > ·)) →
    ∀ (s : State) below lhs rhs id t, s.os = below ++ [lhs, rhs] → s.lookup id = some t → ∃ u,
      exec i s = .next u ∧
      (rel lhs.toInt rhs.toInt → exec (.brt id) u = .next { s with os := below, pc := t } ∧
        exec (.brz id) u = .next { s with os := below, pc := s.pc + 2 }) ∧
      (¬ rel lhs.toInt rhs.toInt → exec (.brt id) u = .next { s with os := below, pc := s.pc + 2 } ∧
        exec (.brz id) u = .next { s with os := below, pc := t })

/-! ### Bitwise and logical -/

/-- 46_bitwise.md R171 to R174 (decision D18 of the spec): bit by bit on all 32 bits. -/
def Obligations.AndOrXorNotActBitByBit : Prop :=
  (∃ f : Word → Word → Word, BinaryRule .and 0x7000000000#40 f ∧
    ∀ lhs rhs i, i < 32 → (f lhs rhs).getLsbD i = (lhs.getLsbD i && rhs.getLsbD i)) ∧
  (∃ f : Word → Word → Word, BinaryRule .or 0x7100000000#40 f ∧
    ∀ lhs rhs i, i < 32 → (f lhs rhs).getLsbD i = (lhs.getLsbD i || rhs.getLsbD i)) ∧
  (∃ f : Word → Word → Word, BinaryRule .xor 0x7200000000#40 f ∧
    ∀ lhs rhs i, i < 32 → (f lhs rhs).getLsbD i = (lhs.getLsbD i != rhs.getLsbD i)) ∧
  ∃ f : Word → Word, UnaryRule .not 0x7300000000#40 f ∧
    ∀ a i, i < 32 → (f a).getLsbD i = !a.getLsbD i

/-- 46_bitwise.md R175, R176 (decision D17 of the spec): the amount is the low five bits of the right operand; zeros
enter on the right of a left shift, copies of bit 31 at the top of a right shift. -/
def Obligations.ShiftsMoveBitsByTheLowFiveBits : Prop :=
  (∃ f : Word → Word → Word, BinaryRule .shl 0x7400000000#40 f ∧
    ∀ lhs rhs i, i < 32 →
      (f lhs rhs).getLsbD i = if rhs.toNat % 32 ≤ i then lhs.getLsbD (i - rhs.toNat % 32) else false) ∧
  ∃ f : Word → Word → Word, BinaryRule .shr 0x7500000000#40 f ∧
    ∀ lhs rhs i, i < 32 →
      (f lhs rhs).getLsbD i = if i + rhs.toNat % 32 < 32 then lhs.getLsbD (i + rhs.toNat % 32) else lhs.getLsbD 31

/-- 46_bitwise.md R177 (decision D18 of the spec). -/
def Obligations.BoolCoercesToOneOrZero : Prop :=
  UnaryRule .bool 0x7600000000#40 (fun a => if a = 0 then 0 else 1)

/-! ### Control flow -/

/-- 43_control.md R136. -/
def Obligations.JumpGoesToTheMarker : Prop :=
  ∀ id, encode (.jump id) = 0x40#8 ++ id ∧ ∀ s : State,
    (s.lookup id = none → RaisesAt (.jump id) s .unknownLabel) ∧
    ∀ t, s.lookup id = some t → exec (.jump id) s = .next { s with pc := t }

/-- 43_control.md R137, R138 (decision D20 of the spec). -/
def Obligations.BranchesConsumeTheTestedValue : Prop :=
  BranchRule .brt 0x41#8 (fun v => v ≠ 0) ∧ BranchRule .brz 0x42#8 (fun v => v = 0)

/-- 43_control.md R139 (decision D12 of the spec): UnknownLabel is tested before CallStackOverflow; the return address
is `PC + 1`. -/
def Obligations.CallSavesTheNextIndex : Prop :=
  ∀ id, encode (.call id) = 0x43#8 ++ id ∧ ∀ s : State,
    (s.lookup id = none → RaisesAt (.call id) s .unknownLabel) ∧
    ∀ t, s.lookup id = some t →
      (CsFull s → RaisesAt (.call id) s .callStackOverflow) ∧
      (¬ CsFull s → exec (.call id) s = .next { s with cs := s.cs ++ [s.pc + 1], pc := t })

/-- 43_control.md R140, R141 (decision D34 of the spec): CallStackUnderflow is tested before StackOverflow. -/
def Obligations.RetAndRetVPopTheReturnAddress : Prop :=
  encode .ret = 0x4400000000#40 ∧ (∀ k, encode (.retV k) = 0x45#8 ++ k) ∧ ∀ (s : State) k,
    (s.cs = [] → RaisesAt .ret s .callStackUnderflow ∧ RaisesAt (.retV k) s .callStackUnderflow) ∧
    ∀ outer r, s.cs = outer ++ [r] →
      exec .ret s = .next { s with cs := outer, pc := r } ∧
      (OsFull s → RaisesAt (.retV k) s .stackOverflow) ∧
      (¬ OsFull s → exec (.retV k) s = .next { s with os := s.os ++ [k], cs := outer, pc := r })

/-- 43_control.md R139, R140, R145: a `Ret` right after a `Call` is back at the instruction after the call, with both
stacks as they were. -/
def Obligations.RetUndoesCall : Prop :=
  ∀ (s : State) id t, s.lookup id = some t → ¬ CsFull s → ∃ u,
    exec (.call id) s = .next u ∧ u.pc = t ∧ exec .ret u = .next { s with pc := s.pc + 1 }

/-- 43_control.md R142, the run-time part (decision D9 of the spec): the marker does nothing but advance. -/
def Obligations.LabelMarkerOnlyAdvances : Prop :=
  ∀ id, encode (.label id) = 0x46#8 ++ id ∧ ∀ s, exec (.label id) s = .next { s with pc := s.pc + 1 }

/-- 43_control.md R143 (decision D40 of the spec): `PC <- L`; the step that executes `Halt` ends Halted, after it STEP
does nothing and a RUN returns at once. In a state with a program of 2^32 words or more, which no LOAD accepts, `L` as a
32-bit value is the length modulo 2^32: that part of the first clause is the model's (log entry 11). -/
def Obligations.HaltEndsTheRunAtOnce : Prop :=
  encode .halt = 0x4700000000#40 ∧ ∀ s : State,
    exec .halt s = .next { s with pc := BitVec.ofNat 32 s.prog.length } ∧
    ∀ t, s.faultKind = .none → s.pending = .none → s.prog.length < 4294967296 → exec .halt s = .next t →
      t.pc.toNat = t.prog.length ∧ t.status = .halted ∧ step t = .next t ∧ ∀ n, runFor n t = .next t

/-! ### Memory -/

/-- 44_memory.md R150: the word at `a`, 0 where `a` is absent; memory is not changed. -/
def Obligations.LoadPushesTheWordAtTheAddress : Prop :=
  ∀ a, encode (.load a) = 0x50#8 ++ a ∧ ∀ s : State,
    (OsFull s → RaisesAt (.load a) s .stackOverflow) ∧
    (¬ OsFull s → ∀ v, s.mem.entry a.toNat = some v →
      exec (.load a) s = .next { s with os := s.os ++ [v], pc := s.pc + 1 }) ∧
    (¬ OsFull s → s.mem.entry a.toNat = none →
      exec (.load a) s = .next { s with os := s.os ++ [0], pc := s.pc + 1 })

/-- 44_memory.md R151: address `a` becomes present with the popped value, every other address holds what it held. -/
def Obligations.StoreMakesTheAddressPresent : Prop :=
  ∀ a, encode (.store a) = 0x51#8 ++ a ∧ ∀ s : State,
    (s.os.length < 1 → RaisesAt (.store a) s .stackUnderflow) ∧
    ∀ below v, s.os = below ++ [v] → ∃ m : Memory,
      exec (.store a) s = .next { s with os := below, mem := m, pc := s.pc + 1 } ∧
      m.entry a.toNat = some v ∧ ∀ b : Word, b ≠ a → m.entry b.toNat = s.mem.entry b.toNat

/-- 44_memory.md R152 (decision D24 of the spec): exactly the addresses `a` with `0 <= s(a) < s(n)` become present with
0. -/
def Obligations.AllocZeroesTheBlockFromAddressZero : Prop :=
  ∀ n, encode (.alloc n) = 0x52#8 ++ n ∧ ∀ s : State, ∃ m : Memory,
    exec (.alloc n) s = .next { s with mem := m, pc := s.pc + 1 } ∧
    ∀ a : Word, m.entry a.toNat =
      if 0 ≤ a.toInt ∧ a.toInt < n.toInt then some 0 else s.mem.entry a.toNat

/-- 44_memory.md R153 (decision D39 of the spec): address `a` becomes absent; freeing an absent address changes nothing.
-/
def Obligations.FreeMakesTheAddressAbsent : Prop :=
  ∀ a, encode (.free a) = 0x53#8 ++ a ∧ ∀ s : State, ∃ m : Memory,
    exec (.free a) s = .next { s with mem := m, pc := s.pc + 1 } ∧
    m.entry a.toNat = none ∧ (∀ b : Word, b ≠ a → m.entry b.toNat = s.mem.entry b.toNat) ∧
    (s.mem.entry a.toNat = none → m = s.mem)

/-- 20_memory.md R54: `Store(a)` then `Load(a)` gives the stored value back, and `Free(a)` then `Load(a)` gives 0,
whatever the stack holds as long as there is room. -/
def Obligations.LoadAfterStoreAndAfterFree : Prop :=
  ∀ (s : State) a,
    (∀ below v, s.os = below ++ [v] → s.cfg.stackDepth ≠ .finite below.length → ∃ t u,
      exec (.store a) s = .next t ∧ t.mem.entry a.toNat = some v ∧ exec (.load a) t = .next u ∧
      u = { s with mem := t.mem, pc := s.pc + 2 }) ∧
    (¬ OsFull s → ∃ t u,
      exec (.free a) s = .next t ∧ t.mem.entry a.toNat = none ∧ exec (.load a) t = .next u ∧
      u = { s with os := s.os ++ [0], mem := t.mem, pc := s.pc + 2 })

/-- 44_memory.md R152 against the fast form: the block that `Alloc` writes at once is what a `MemWrite` of 0 to each of
its addresses in turn leaves. The canonical form of `MEM` is the model's (log entry 1). -/
def Obligations.AllocBlockIsTheWritesInTurn : Prop :=
  ∀ (m : Memory) (n : Nat), m.wf → m.zeroBlock n = (List.range n).foldl (fun k a => k.write a 0) m

/-- The canonical form of `MEM` (the model's, log entry 1): two memories that hold the same at every address are equal
data, so that equality of states and of `Dump` events is equality of what they hold (20_memory.md R50, R54). -/
def Obligations.CanonicalMemoriesAreEqualData : Prop :=
  ∀ m k : Memory, m.wf → k.wf → (∀ a : Word, m.entry a.toNat = k.entry a.toNat) → m = k

/-! ### Input and output, debugging -/

/-- 45_io.md R161, R163 (decisions D6, D37 of the spec). -/
def Obligations.PrintAndWriteEmitOneEvent : Prop :=
  encode .print = 0x6000000000#40 ∧ (∀ m, encode (.write m) = 0x62#8 ++ m) ∧ ∀ s : State,
    (∀ below a, s.os = below ++ [a] → exec .print s = .next { s with out := s.out ++ [.print a], pc := s.pc + 1 }) ∧
    (s.os = [] → exec .print s = .next { s with out := s.out ++ [.printEmpty], pc := s.pc + 1 }) ∧
    ∀ m, exec (.write m) s = .next { s with out := s.out ++ [.write m], pc := s.pc + 1 }

/-- 45_io.md R162, R164 (decisions D26, D27 of the spec): `Read` tests the room now, `Scan` tests nothing; both ask and
advance, the status is then AwaitingInput, and the DELIVER that answers pushes the word or ignores it. -/
def Obligations.ReadAndScanRaiseARequest : Prop :=
  encode .read = 0x6100000000#40 ∧ encode .scan = 0x6300000000#40 ∧ ∀ s : State,
    (OsFull s → RaisesAt .read s .stackOverflow) ∧
    (¬ OsFull s → exec .read s = .next { s with pending := .numeric, pc := s.pc + 1 }) ∧
    exec .scan s = .next { s with pending := .line, pc := s.pc + 1 } ∧
    (s.faultKind = .none → ∀ p, p ≠ Pending.none →
      ({ s with pending := p, pc := s.pc + 1 } : State).status = .awaitingInput) ∧
    ∀ v, deliverCommand v { s with pending := .numeric, pc := s.pc + 1 } =
        { s with os := s.os ++ [v], pending := .none, pc := s.pc + 1 } ∧
      deliverCommand v { s with pending := .line, pc := s.pc + 1 } = { s with pending := .none, pc := s.pc + 1 }

/-- 47_debug.md R181, R182 (decisions D31, D32 of the spec): `Dump` emits the stack and the memory as they are;
`Trace(f)` sets the flag to `f`. -/
def Obligations.DumpEmitsASnapshotAndTraceSetsTheFlag : Prop :=
  encode .dump = 0x8000000000#40 ∧ encode (.trace false) = 0x8100000000#40 ∧ encode (.trace true) = 0x8100000001#40 ∧
  ∀ s : State,
    exec .dump s = .next { s with out := s.out ++ [.dump s.os s.mem], pc := s.pc + 1 } ∧
    ∀ f, exec (.trace f) s = .next { s with trace := f, pc := s.pc + 1 }

/-- 10_state.md R43 (decisions D26, D27, D28 of the spec): a numeric request is answered by pushing the word, a line
request ignores it, and with nothing pending nothing changes; `PC` is not changed. -/
def Obligations.DeliverAnswersThePendingRequest : Prop :=
  ∀ (s : State) v,
    (s.pending = .numeric → command (.deliver v) s = .next { s with os := s.os ++ [v], pending := .none }) ∧
    (s.pending = .line → command (.deliver v) s = .next { s with pending := .none }) ∧
    (s.pending = .none → command (.deliver v) s = .next s)

/-- 45_io.md R162, R165: after a `Read` the engine waits: a STEP leaves the state as it is, and so do any number of
them, a RUN returns at once, and the delivered word is on the stack when execution resumes at the instruction after the
`Read`. -/
def Obligations.ReadWaitsUntilTheHostDelivers : Prop :=
  ∀ s : State, s.status = .ready → s.fetch = some 0x6100000000#40 → ¬ OsFull s → ∃ t,
    step s = .next t ∧ t.status = .awaitingInput ∧ step t = .next t ∧ (∀ n, runFor n t = .next t) ∧
    ∀ v, deliverCommand v t = { s with os := s.os ++ [v], pc := s.pc + 1 } ∧
      (deliverCommand v t).status = if (s.pc + 1).toNat = s.prog.length then .halted else .ready

/-! ### Faults -/

/-- 60_exceptions.md R204 (decision D22 of the spec): an instruction that raises a fault changes the fault pair and
nothing else, and the status is then Faulted. -/
def Obligations.FaultsArePrecise : Prop :=
  ∀ i (s t : State), s.faultKind = .none → exec i s = .next t → t.faultKind ≠ .none →
    t = { s with faultKind := t.faultKind, faultPc := s.pc } ∧ t.status = .faulted

/-- 60_exceptions.md R202, which the spec marks as its own inference "[derived: from the instruction rules R101 to
R182]": the faults an instruction can raise are those of the table, and each of them it does raise at some state. -/
def Obligations.EachInstructionRaisesExactlyItsFaults : Prop :=
  (∀ i (s t : State), s.faultKind = .none → exec i s = .next t → t.faultKind ≠ .none → t.faultKind ∈ faultsOf i) ∧
  ∀ i, ∀ k ∈ faultsOf i, ∃ s : State, s.faultKind = .none ∧ RaisesAt i s k

/-- 60_exceptions.md R205 (decision D22 of the spec): Faulted is terminal; STEP, RUN and DELIVER do nothing in it, no
request being pending; RESET leaves it, and so does LOAD, which discards the whole state. -/
def Obligations.FaultedIsTerminalUntilReset : Prop :=
  ∀ s : State, s.faultKind ≠ .none → s.pending = .none →
    step s = .next s ∧ (∀ n, runFor n s = .next s) ∧ (∀ t, RunReturns s t ↔ t = s) ∧
    (∀ v, command (.deliver v) s = .next s) ∧ 
    (∀ t, command .reset s = .next t → t.status = .halted) ∧
    ∀ program, command (.load program) s = command (.load program) (resetCommand s)

/-- 30_encoding.md R80, which the spec marks as its own inference "[derived: from the instruction rules R101 to R182]":
`need` is the least depth at which an instruction does not raise StackUnderflow; one that commits removes and adds as
many elements as the table says and leaves those below untouched; one with `room` raises StackOverflow on a full stack,
once the faults tested before it are absent (60_exceptions.md R203: too few elements, and for `RetV` an empty call
stack), and one without `room` never does. -/
def Obligations.StackEffectsAreThoseOfTheTable : Prop :=
  ∀ i (s : State), let e := stackEffect s.os.length i
    (s.os.length < e.need → RaisesAt i s .stackUnderflow) ∧
    (∀ t, s.faultKind = .none → exec i s = .next t → t.faultKind = .none →
      e.need ≤ s.os.length ∧ (e.room = true → ¬ OsFull s) ∧
      t.os.length = s.os.length - e.pops + e.pushes ∧
      t.os.take (s.os.length - e.pops) = s.os.take (s.os.length - e.pops)) ∧
    (e.need ≤ s.os.length → ∀ t, s.faultKind = .none → exec i s = .next t → t.faultKind ≠ .stackUnderflow) ∧
    (e.room = true → OsFull s → e.need ≤ s.os.length → ((∃ k, i = .retV k) → s.cs ≠ []) →
      RaisesAt i s .stackOverflow) ∧
    (e.room = false → ∀ t, s.faultKind = .none → exec i s = .next t → t.faultKind ≠ .stackOverflow)

/-- 10_state.md R22, R26, R27, R30, R33, R35 (f), and 20_memory.md R50: which instructions write which element. The
parameters as a field are the model's (log entry 2). -/
def Obligations.EachElementHasItsOnlyWriters : Prop :=
  ∀ i (s t : State), exec i s = .next t →
    t.cfg = s.cfg ∧ t.prog = s.prog ∧ t.labels = s.labels ∧
    (t.cs ≠ s.cs → (∃ id, i = .call id) ∨ i = .ret ∨ ∃ k, i = .retV k) ∧
    (t.mem ≠ s.mem → (∃ a, i = .store a) ∨ (∃ n, i = .alloc n) ∨ ∃ a, i = .free a) ∧
    (t.pending ≠ s.pending → i = .read ∨ i = .scan) ∧
    (t.trace ≠ s.trace → ∃ f, i = .trace f) ∧
    (t.out ≠ s.out → i = .print ∨ (∃ m, i = .write m) ∨ i = .dump) ∧
    ((∃ id, i = .jump id) ∨ (∃ id, i = .call id) ∨ i = .ret ∨ (∃ id, i = .label id) ∨ i = .halt ∨
      (∃ n, i = .alloc n) ∨ (∃ a, i = .free a) ∨ (∃ m, i = .write m) ∨ i = .scan ∨ (∃ f, i = .trace f) ∨
      i = .print ∨ i = .dump ∨ i = .read → t.os = s.os)

/-- 10_state.md R33, R35 (f), 20_memory.md R61: a RUN, cut off after any number of STEPs, leaves the program and the
Label Table as loaded, and the output channel only grows. The parameters as a field are the model's (log entry 2). -/
def Obligations.RunKeepsTheProgramAndExtendsTheOutput : Prop :=
  ∀ n (s t : State), runFor n s = .next t →
    t.prog = s.prog ∧ t.labels = s.labels ∧ t.cfg = s.cfg ∧ s.out <+: t.out

/-- 47_debug.md R182 (decision D31 of the spec): `Trace(f)` sets the flag, a word of its opcode with any of bits 31 to 1
set is illegal, and "the engine itself behaves identically whatever `TRACE` holds": two runs that start from states that
differ in the flag only end in states that differ in the flag at most. -/
def Obligations.TracingNeverChangesARun : Prop :=
  (∀ f, encode (.trace f) = 0x81#8 ++ 0#31 ++ BitVec.ofBool f ∧
    ∀ s, exec (.trace f) s = .next { s with trace := f, pc := s.pc + 1 }) ∧
  (∀ x : Word, x.extractLsb' 1 31 ≠ 0 → ∃ e, decode (0x81#8 ++ x) = .error e) ∧
  ∀ n (s t : State) (f : Bool), runFor n s = .next t → ∃ u,
    runFor n { s with trace := f } = .next u ∧ { u with trace := t.trace } = t

/-! ### Load and label resolution -/

/-- 70_reset_and_hazards.md R231 (decision D29 of the spec): LOAD is RESET, then the program and its table, then the
DuplicateLabel fault if there is one; a program longer than `MAX_PROG_LEN` is refused. That the parameters keep their
values, `t.cfg = s.cfg`, is the model's clause (log entry 2): R231 does not name them. -/
def Obligations.LoadResetsAndInstallsTheProgram : Prop :=
  ∀ program (s : State),
    (s.cfg.maxProgLen.val < program.length → command (.load program) s = .refused .programTooLong) ∧
    (program.length ≤ s.cfg.maxProgLen.val → ∃ t, command (.load program) s = .next t ∧
      t.cfg = s.cfg ∧ t.prog = program ∧ t.labels = (resolveLabels program).1 ∧ t.os = [] ∧ t.cs = [] ∧ t.pc = 0 ∧
      t.mem = [] ∧ t.pending = .none ∧ t.trace = false ∧ t.out = [] ∧
      ((resolveLabels program).2 = none → t.faultKind = .none ∧ t.faultPc = 0 ∧
        t.status = if program = [] then .halted else .ready) ∧
      ∀ j, (resolveLabels program).2 = some j →
        t.faultKind = .duplicateLabel ∧ t.faultPc = BitVec.ofNat 32 j ∧ t.status = .faulted)

/-- 70_reset_and_hazards.md R232 (decision D8 of the spec): the table holds each marker's own index, for every marker of
the program, or, where the scan stopped at a duplicate, for every marker before it. -/
def Obligations.LabelTableHoldsEachMarkersOwnIndex : Prop :=
  ∀ program : List InstrWord, program.length < 4294967296 → ∀ (id : Word) (i : Index),
    ((resolveLabels program).2 = none →
      (LabelTable.find (resolveLabels program).1 id = some i ↔ program[i.toNat]? = some (encode (.label id)))) ∧
    ∀ j, (resolveLabels program).2 = some j →
      (LabelTable.find (resolveLabels program).1 id = some i ↔
        i.toNat < j ∧ program[i.toNat]? = some (encode (.label id)))

/-- 70_reset_and_hazards.md R233 (decision D30 of the spec): the duplicate reported is the second occurrence with the
lowest index; the earlier entries are kept and no later marker is entered; LOAD then leaves the engine Faulted at once,
with that index, `PC = 0` and empty stacks, and no STEP executes anything. -/
def Obligations.DuplicateLabelIsTheFirstRepeatedMarker : Prop :=
  ∀ (program : List InstrWord) (j : Nat),
    ((resolveLabels program).2 = some j ↔ RepeatsMarker program j ∧ ∀ k, k < j → ¬ RepeatsMarker program k) ∧
    ((resolveLabels program).2 = some j →
      (resolveLabels program).1 = (resolveLabels (program.take j)).1 ∧ (resolveLabels (program.take j)).2 = none ∧
      ∀ s t : State, command (.load program) s = .next t →
        t.labels = (resolveLabels program).1 ∧ t.faultKind = .duplicateLabel ∧ t.faultPc = BitVec.ofNat 32 j ∧
        t.status = .faulted ∧ t.pc = 0 ∧ t.os = [] ∧ t.cs = [] ∧ step t = .next t)

/-- 70_reset_and_hazards.md section 2: LOAD ends Faulted exactly on a program that carries two equal marker identifiers,
in the terms of the well-formedness check, which reads words by mask and match. -/
def Obligations.LoadFaultsExactlyOnDuplicateMarkers : Prop :=
  ∀ program (s t : State), command (.load program) s = .next t →
    (t.status = .faulted ↔ WellFormed.program s.cfg program = false)

/-! ### Invariants and runs -/

/-- 10_state.md R35, which the spec marks as its own inference "[derived: from rules R24, R30, R31, ...]", with the
model's canonical memory (log entry 1): RESET leaves a state that meets the invariant, whatever the parameters. -/
def Obligations.ResetMeetsTheInvariant : Prop := (∀ cfg, (State.resetOf cfg).Inv) ∧ State.reset.Inv

/-- 10_state.md R35, the spec's own inference as above, with the model's canonical memory (log entry 1): a STEP from any
state that meets the invariant leaves one that meets it. -/
def Obligations.StepKeepsTheInvariant : Prop := ∀ s t : State, s.Inv → step s = .next t → t.Inv

/-- 10_state.md R35 (a) to (f), the spec's own inference as above, with the model's canonical memory (log entry 1): the
invariants hold after RESET and after LOAD from any state, and every command and every bounded RUN keeps them; `PROG`,
`L` and `LT` change only by RESET and LOAD. -/
def Obligations.EveryCommandKeepsTheStateInvariants : Prop :=
  (∀ s t : State, command .reset s = .next t → t.Inv) ∧
  (∀ program (s t : State), command (.load program) s = .next t → t.Inv) ∧
  (∀ c (s t : State), s.Inv → command c s = .next t → t.Inv) ∧
  (∀ n (s t : State), s.Inv → runFor n s = .next t → t.Inv) ∧
  (∀ s : State, s.Inv → ∀ id i, s.lookup id = some i →
    i.toNat < s.prog.length ∧ s.prog[i.toNat]? = some (encode (.label id))) ∧
  ∀ c (s t : State), c = .step ∨ (∃ v, c = .deliver v) → command c s = .next t →
    t.prog = s.prog ∧ t.labels = s.labels

/-- 70_reset_and_hazards.md R244 (decision D33 of the spec): every instruction is total, it commits or faults, so a STEP
from a state that meets the invariant always completes: the model's own stops are never met. -/
def Obligations.EveryInstructionAndEveryStepCompletes : Prop :=
  (∀ i s, ∃ t, exec i s = .next t) ∧ ∀ s : State, s.Inv → ∃ t, step s = .next t

/-- 10_state.md R42, 70_reset_and_hazards.md R244 (decisions D33, D41 of the spec): RUN returns in a state exactly when
so many STEPs lead there and the status is no longer Ready; it returns in at most one state; and on the program
`Label(1), Jump(1)` it does not return. -/
def Obligations.RunReturnsExactlyWhenTheStatusLeavesReady : Prop :=
  (∀ s t, RunReturns s t ↔ t.status ≠ .ready ∧ ∃ n, runFor n s = .next t) ∧
  (∀ s t u, RunReturns s t → RunReturns s u → t = u) ∧
  ∀ s t u : State, command (.load [encode (.label 1), encode (.jump 1)]) s = .next t → ¬ RunReturns t u
end

