-- ==== Sys2Proof/Laws/Decode.lean ====
section
/-! SUPPORT. The bits and the fields of a word built from an opcode and an operand. -/

namespace Sys2Proof

/-- The bits of `{opcode, operand}`. -/
theorem getLsbD_mkWord (op : Opcode) (x : Word) (i : Nat) :
    (mkWord op x).getLsbD i = if i < 32 then x.getLsbD i else op.getLsbD (i - 32) :=
  (BitVec.getLsbD_append (x := op) (y := x) (i := i)).trans (by split <;> simp_all)

@[simp] theorem opcodeOf_mkWord (op : Opcode) (x : Word) : opcodeOf (mkWord op x) = op := by
  ext i hi
  simp [opcodeOf, BitVec.getElem_extractLsb', getLsbD_mkWord, BitVec.getLsbD_eq_getElem hi]

@[simp] theorem operandOf_mkWord (op : Opcode) (x : Word) : operandOf (mkWord op x) = x := by
  ext i hi
  simp [operandOf, BitVec.getElem_extractLsb', getLsbD_mkWord, hi]

/-- A word is its two fields. -/
theorem mkWord_opcodeOf_operandOf (w : InstrWord) : mkWord (opcodeOf w) (operandOf w) = w := by
  apply BitVec.eq_of_getLsbD_eq
  intro i hi
  rw [getLsbD_mkWord]
  split
  · rename_i h
    simp [operandOf, h]
  · rename_i h
    have h8 : i - 32 < 8 := by omega
    have h32 : 32 + (i - 32) = i := by omega
    simp [opcodeOf, h8, h32]

@[simp] theorem decode_mkWord (op : Opcode) (x : Word) : decode (mkWord op x) = decodeFields op x := by
  simp [decode]

end Sys2Proof
end

