-- ==== Sys2Proof/Laws/Memory.lean ====
section
/-! SUPPORT. Every memory operation keeps the canonical form `Memory.wf`. -/

namespace Sys2Proof.Machine

theorem Memory.wf_nil : Memory.wf [] := ⟨List.Pairwise.nil, fun _ h => absurd h List.not_mem_nil⟩

/-- The addresses of a memory after a write are its addresses and the one written. -/
theorem Memory.mem_write_address {m : Memory} {a : Nat} {v : Word} {c : Nat × Word} (h : c ∈ m.write a v) :
    c.1 = a ∨ c ∈ m := by
  induction m with
  | nil => simp [Memory.write] at h; exact .inl (by rw [h])
  | cons x m ih =>
    obtain ⟨b, u⟩ := x
    simp only [Memory.write] at h
    split at h
    · rcases List.mem_cons.mp h with rfl | h
      · exact .inl rfl
      · exact .inr h
    · split at h
      · rcases List.mem_cons.mp h with rfl | h
        · exact .inl rfl
        · exact .inr (List.mem_cons_of_mem _ h)
      · rcases List.mem_cons.mp h with rfl | h
        · exact .inr List.mem_cons_self
        · exact (ih h).imp_right (List.mem_cons_of_mem _)

theorem Memory.pairwise_write {m : Memory} (a : Nat) (v : Word) (h : m.Pairwise (fun x y => x.1 < y.1)) :
    (m.write a v).Pairwise (fun x y => x.1 < y.1) := by
  induction m with
  | nil => simp [Memory.write]
  | cons x m ih =>
    obtain ⟨b, u⟩ := x
    obtain ⟨hb, hm⟩ := List.pairwise_cons.mp h
    simp only [Memory.write]
    split
    · rename_i hab
      refine List.pairwise_cons.mpr ⟨fun c hc => ?_, h⟩
      rcases List.mem_cons.mp hc with rfl | hc
      · exact hab
      · exact hab.trans (hb c hc)
    · split
      · rename_i hab
        subst hab
        exact List.pairwise_cons.mpr ⟨hb, hm⟩
      · refine List.pairwise_cons.mpr ⟨fun c hc => ?_, ih hm⟩
        rcases Memory.mem_write_address hc with hc | hc
        · show b < c.1
          omega
        · exact hb c hc

theorem Memory.wf_write {m : Memory} {a : Nat} (v : Word) (ha : a < 4294967296) (h : m.wf) : (m.write a v).wf := by
  refine ⟨Memory.pairwise_write a v h.1, fun c hc => ?_⟩
  rcases Memory.mem_write_address hc with hc | hc
  · omega
  · exact h.2 c hc

theorem Memory.wf_free {m : Memory} (a : Nat) (h : m.wf) : (m.free a).wf :=
  ⟨h.1.filter _, fun c hc => h.2 c (List.mem_filter.mp hc).1⟩

theorem Memory.wf_zeroBlock {m : Memory} {n : Nat} (hn : n ≤ 4294967296) (h : m.wf) : (m.zeroBlock n).wf := by
  constructor
  · refine List.pairwise_append.mpr ⟨?_, h.1.filter _, ?_⟩
    · exact List.pairwise_map.mpr List.pairwise_lt_range
    · intro x hx y hy
      obtain ⟨a, ha, rfl⟩ := List.mem_map.mp hx
      have hy := (List.mem_filter.mp hy).2
      simp at ha hy
      exact lt_of_lt_of_le ha hy
  · intro c hc
    rcases List.mem_append.mp hc with hc | hc
    · obtain ⟨a, ha, rfl⟩ := List.mem_map.mp hc
      simp at ha ⊢
      omega
    · exact h.2 c (List.mem_filter.mp hc).1

/-- The three memory operations of the machine keep the canonical form. -/
theorem State.memWrite_wf (s : State) (a v : Word) (h : s.mem.wf) : (s.memWrite a v).mem.wf :=
  Memory.wf_write v a.isLt h

theorem State.memFree_wf (s : State) (a : Word) (h : s.mem.wf) : (s.memFree a).mem.wf := Memory.wf_free a.toNat h

theorem State.memAlloc_wf (s : State) (n : Word) (h : s.mem.wf) : (s.memAlloc n).mem.wf := by
  refine Memory.wf_zeroBlock ?_ h
  have h1 : n.toInt < 2147483648 := by simpa using BitVec.toInt_lt (x := n)
  omega

theorem State.reset_mem_wf : State.reset.mem.wf := Memory.wf_nil

end Sys2Proof.Machine
end

