-- ==== Sys2Proof/Laws/State.lean ====
section
/-! SUPPORT. One lemma per field per update of the state, each true by unfolding, so that no later proof unfolds a record
update. -/

namespace Sys2Proof.Machine

variable (s : State)

/-! ### `drop` -/

@[simp] theorem State.drop_cfg (n : Nat) : (s.drop n).cfg = s.cfg := rfl
@[simp] theorem State.drop_os (n : Nat) : (s.drop n).os = s.os.take (s.os.length - n) := rfl
@[simp] theorem State.drop_cs (n : Nat) : (s.drop n).cs = s.cs := rfl
@[simp] theorem State.drop_pc (n : Nat) : (s.drop n).pc = s.pc := rfl
@[simp] theorem State.drop_mem (n : Nat) : (s.drop n).mem = s.mem := rfl
@[simp] theorem State.drop_prog (n : Nat) : (s.drop n).prog = s.prog := rfl
@[simp] theorem State.drop_labels (n : Nat) : (s.drop n).labels = s.labels := rfl
@[simp] theorem State.drop_pending (n : Nat) : (s.drop n).pending = s.pending := rfl
@[simp] theorem State.drop_trace (n : Nat) : (s.drop n).trace = s.trace := rfl
@[simp] theorem State.drop_faultKind (n : Nat) : (s.drop n).faultKind = s.faultKind := rfl
@[simp] theorem State.drop_faultPc (n : Nat) : (s.drop n).faultPc = s.faultPc := rfl
@[simp] theorem State.drop_out (n : Nat) : (s.drop n).out = s.out := rfl

/-! ### `push` -/

@[simp] theorem State.push_cfg (v : Word) : (s.push v).cfg = s.cfg := rfl
@[simp] theorem State.push_os (v : Word) : (s.push v).os = s.os ++ [v] := rfl
@[simp] theorem State.push_cs (v : Word) : (s.push v).cs = s.cs := rfl
@[simp] theorem State.push_pc (v : Word) : (s.push v).pc = s.pc := rfl
@[simp] theorem State.push_mem (v : Word) : (s.push v).mem = s.mem := rfl
@[simp] theorem State.push_prog (v : Word) : (s.push v).prog = s.prog := rfl
@[simp] theorem State.push_labels (v : Word) : (s.push v).labels = s.labels := rfl
@[simp] theorem State.push_pending (v : Word) : (s.push v).pending = s.pending := rfl
@[simp] theorem State.push_trace (v : Word) : (s.push v).trace = s.trace := rfl
@[simp] theorem State.push_faultKind (v : Word) : (s.push v).faultKind = s.faultKind := rfl
@[simp] theorem State.push_faultPc (v : Word) : (s.push v).faultPc = s.faultPc := rfl
@[simp] theorem State.push_out (v : Word) : (s.push v).out = s.out := rfl

/-! ### `cpush` -/

@[simp] theorem State.cpush_cfg (a : Index) : (s.cpush a).cfg = s.cfg := rfl
@[simp] theorem State.cpush_os (a : Index) : (s.cpush a).os = s.os := rfl
@[simp] theorem State.cpush_cs (a : Index) : (s.cpush a).cs = s.cs ++ [a] := rfl
@[simp] theorem State.cpush_pc (a : Index) : (s.cpush a).pc = s.pc := rfl
@[simp] theorem State.cpush_mem (a : Index) : (s.cpush a).mem = s.mem := rfl
@[simp] theorem State.cpush_prog (a : Index) : (s.cpush a).prog = s.prog := rfl
@[simp] theorem State.cpush_labels (a : Index) : (s.cpush a).labels = s.labels := rfl
@[simp] theorem State.cpush_pending (a : Index) : (s.cpush a).pending = s.pending := rfl
@[simp] theorem State.cpush_trace (a : Index) : (s.cpush a).trace = s.trace := rfl
@[simp] theorem State.cpush_faultKind (a : Index) : (s.cpush a).faultKind = s.faultKind := rfl
@[simp] theorem State.cpush_faultPc (a : Index) : (s.cpush a).faultPc = s.faultPc := rfl
@[simp] theorem State.cpush_out (a : Index) : (s.cpush a).out = s.out := rfl

/-! ### `cdrop` -/

@[simp] theorem State.cdrop_cfg : (s.cdrop).cfg = s.cfg := rfl
@[simp] theorem State.cdrop_os : (s.cdrop).os = s.os := rfl
@[simp] theorem State.cdrop_cs : (s.cdrop).cs = s.cs.dropLast := rfl
@[simp] theorem State.cdrop_pc : (s.cdrop).pc = s.pc := rfl
@[simp] theorem State.cdrop_mem : (s.cdrop).mem = s.mem := rfl
@[simp] theorem State.cdrop_prog : (s.cdrop).prog = s.prog := rfl
@[simp] theorem State.cdrop_labels : (s.cdrop).labels = s.labels := rfl
@[simp] theorem State.cdrop_pending : (s.cdrop).pending = s.pending := rfl
@[simp] theorem State.cdrop_trace : (s.cdrop).trace = s.trace := rfl
@[simp] theorem State.cdrop_faultKind : (s.cdrop).faultKind = s.faultKind := rfl
@[simp] theorem State.cdrop_faultPc : (s.cdrop).faultPc = s.faultPc := rfl
@[simp] theorem State.cdrop_out : (s.cdrop).out = s.out := rfl

/-! ### `memWrite` -/

@[simp] theorem State.memWrite_cfg (a v : Word) : (s.memWrite a v).cfg = s.cfg := rfl
@[simp] theorem State.memWrite_os (a v : Word) : (s.memWrite a v).os = s.os := rfl
@[simp] theorem State.memWrite_cs (a v : Word) : (s.memWrite a v).cs = s.cs := rfl
@[simp] theorem State.memWrite_pc (a v : Word) : (s.memWrite a v).pc = s.pc := rfl
@[simp] theorem State.memWrite_mem (a v : Word) : (s.memWrite a v).mem = s.mem.write a.toNat v := rfl
@[simp] theorem State.memWrite_prog (a v : Word) : (s.memWrite a v).prog = s.prog := rfl
@[simp] theorem State.memWrite_labels (a v : Word) : (s.memWrite a v).labels = s.labels := rfl
@[simp] theorem State.memWrite_pending (a v : Word) : (s.memWrite a v).pending = s.pending := rfl
@[simp] theorem State.memWrite_trace (a v : Word) : (s.memWrite a v).trace = s.trace := rfl
@[simp] theorem State.memWrite_faultKind (a v : Word) : (s.memWrite a v).faultKind = s.faultKind := rfl
@[simp] theorem State.memWrite_faultPc (a v : Word) : (s.memWrite a v).faultPc = s.faultPc := rfl
@[simp] theorem State.memWrite_out (a v : Word) : (s.memWrite a v).out = s.out := rfl

/-! ### `memFree` -/

@[simp] theorem State.memFree_cfg (a : Word) : (s.memFree a).cfg = s.cfg := rfl
@[simp] theorem State.memFree_os (a : Word) : (s.memFree a).os = s.os := rfl
@[simp] theorem State.memFree_cs (a : Word) : (s.memFree a).cs = s.cs := rfl
@[simp] theorem State.memFree_pc (a : Word) : (s.memFree a).pc = s.pc := rfl
@[simp] theorem State.memFree_mem (a : Word) : (s.memFree a).mem = s.mem.free a.toNat := rfl
@[simp] theorem State.memFree_prog (a : Word) : (s.memFree a).prog = s.prog := rfl
@[simp] theorem State.memFree_labels (a : Word) : (s.memFree a).labels = s.labels := rfl
@[simp] theorem State.memFree_pending (a : Word) : (s.memFree a).pending = s.pending := rfl
@[simp] theorem State.memFree_trace (a : Word) : (s.memFree a).trace = s.trace := rfl
@[simp] theorem State.memFree_faultKind (a : Word) : (s.memFree a).faultKind = s.faultKind := rfl
@[simp] theorem State.memFree_faultPc (a : Word) : (s.memFree a).faultPc = s.faultPc := rfl
@[simp] theorem State.memFree_out (a : Word) : (s.memFree a).out = s.out := rfl

/-! ### `memAlloc` -/

@[simp] theorem State.memAlloc_cfg (n : Word) : (s.memAlloc n).cfg = s.cfg := rfl
@[simp] theorem State.memAlloc_os (n : Word) : (s.memAlloc n).os = s.os := rfl
@[simp] theorem State.memAlloc_cs (n : Word) : (s.memAlloc n).cs = s.cs := rfl
@[simp] theorem State.memAlloc_pc (n : Word) : (s.memAlloc n).pc = s.pc := rfl
@[simp] theorem State.memAlloc_mem (n : Word) : (s.memAlloc n).mem = s.mem.zeroBlock n.toInt.toNat := rfl
@[simp] theorem State.memAlloc_prog (n : Word) : (s.memAlloc n).prog = s.prog := rfl
@[simp] theorem State.memAlloc_labels (n : Word) : (s.memAlloc n).labels = s.labels := rfl
@[simp] theorem State.memAlloc_pending (n : Word) : (s.memAlloc n).pending = s.pending := rfl
@[simp] theorem State.memAlloc_trace (n : Word) : (s.memAlloc n).trace = s.trace := rfl
@[simp] theorem State.memAlloc_faultKind (n : Word) : (s.memAlloc n).faultKind = s.faultKind := rfl
@[simp] theorem State.memAlloc_faultPc (n : Word) : (s.memAlloc n).faultPc = s.faultPc := rfl
@[simp] theorem State.memAlloc_out (n : Word) : (s.memAlloc n).out = s.out := rfl

/-! ### `goto` -/

@[simp] theorem State.goto_cfg (a : Index) : (s.goto a).cfg = s.cfg := rfl
@[simp] theorem State.goto_os (a : Index) : (s.goto a).os = s.os := rfl
@[simp] theorem State.goto_cs (a : Index) : (s.goto a).cs = s.cs := rfl
@[simp] theorem State.goto_pc (a : Index) : (s.goto a).pc = a := rfl
@[simp] theorem State.goto_mem (a : Index) : (s.goto a).mem = s.mem := rfl
@[simp] theorem State.goto_prog (a : Index) : (s.goto a).prog = s.prog := rfl
@[simp] theorem State.goto_labels (a : Index) : (s.goto a).labels = s.labels := rfl
@[simp] theorem State.goto_pending (a : Index) : (s.goto a).pending = s.pending := rfl
@[simp] theorem State.goto_trace (a : Index) : (s.goto a).trace = s.trace := rfl
@[simp] theorem State.goto_faultKind (a : Index) : (s.goto a).faultKind = s.faultKind := rfl
@[simp] theorem State.goto_faultPc (a : Index) : (s.goto a).faultPc = s.faultPc := rfl
@[simp] theorem State.goto_out (a : Index) : (s.goto a).out = s.out := rfl

/-! ### `advance` -/

@[simp] theorem State.advance_cfg : (s.advance).cfg = s.cfg := rfl
@[simp] theorem State.advance_os : (s.advance).os = s.os := rfl
@[simp] theorem State.advance_cs : (s.advance).cs = s.cs := rfl
@[simp] theorem State.advance_pc : (s.advance).pc = s.pc + 1 := rfl
@[simp] theorem State.advance_mem : (s.advance).mem = s.mem := rfl
@[simp] theorem State.advance_prog : (s.advance).prog = s.prog := rfl
@[simp] theorem State.advance_labels : (s.advance).labels = s.labels := rfl
@[simp] theorem State.advance_pending : (s.advance).pending = s.pending := rfl
@[simp] theorem State.advance_trace : (s.advance).trace = s.trace := rfl
@[simp] theorem State.advance_faultKind : (s.advance).faultKind = s.faultKind := rfl
@[simp] theorem State.advance_faultPc : (s.advance).faultPc = s.faultPc := rfl
@[simp] theorem State.advance_out : (s.advance).out = s.out := rfl

/-! ### `emit` -/

@[simp] theorem State.emit_cfg (e : Event) : (s.emit e).cfg = s.cfg := rfl
@[simp] theorem State.emit_os (e : Event) : (s.emit e).os = s.os := rfl
@[simp] theorem State.emit_cs (e : Event) : (s.emit e).cs = s.cs := rfl
@[simp] theorem State.emit_pc (e : Event) : (s.emit e).pc = s.pc := rfl
@[simp] theorem State.emit_mem (e : Event) : (s.emit e).mem = s.mem := rfl
@[simp] theorem State.emit_prog (e : Event) : (s.emit e).prog = s.prog := rfl
@[simp] theorem State.emit_labels (e : Event) : (s.emit e).labels = s.labels := rfl
@[simp] theorem State.emit_pending (e : Event) : (s.emit e).pending = s.pending := rfl
@[simp] theorem State.emit_trace (e : Event) : (s.emit e).trace = s.trace := rfl
@[simp] theorem State.emit_faultKind (e : Event) : (s.emit e).faultKind = s.faultKind := rfl
@[simp] theorem State.emit_faultPc (e : Event) : (s.emit e).faultPc = s.faultPc := rfl
@[simp] theorem State.emit_out (e : Event) : (s.emit e).out = s.out ++ [e] := rfl

/-! ### `request` -/

@[simp] theorem State.request_cfg (p : Pending) : (s.request p).cfg = s.cfg := rfl
@[simp] theorem State.request_os (p : Pending) : (s.request p).os = s.os := rfl
@[simp] theorem State.request_cs (p : Pending) : (s.request p).cs = s.cs := rfl
@[simp] theorem State.request_pc (p : Pending) : (s.request p).pc = s.pc := rfl
@[simp] theorem State.request_mem (p : Pending) : (s.request p).mem = s.mem := rfl
@[simp] theorem State.request_prog (p : Pending) : (s.request p).prog = s.prog := rfl
@[simp] theorem State.request_labels (p : Pending) : (s.request p).labels = s.labels := rfl
@[simp] theorem State.request_pending (p : Pending) : (s.request p).pending = p := rfl
@[simp] theorem State.request_trace (p : Pending) : (s.request p).trace = s.trace := rfl
@[simp] theorem State.request_faultKind (p : Pending) : (s.request p).faultKind = s.faultKind := rfl
@[simp] theorem State.request_faultPc (p : Pending) : (s.request p).faultPc = s.faultPc := rfl
@[simp] theorem State.request_out (p : Pending) : (s.request p).out = s.out := rfl

/-! ### `setTrace` -/

@[simp] theorem State.setTrace_cfg (f : Bool) : (s.setTrace f).cfg = s.cfg := rfl
@[simp] theorem State.setTrace_os (f : Bool) : (s.setTrace f).os = s.os := rfl
@[simp] theorem State.setTrace_cs (f : Bool) : (s.setTrace f).cs = s.cs := rfl
@[simp] theorem State.setTrace_pc (f : Bool) : (s.setTrace f).pc = s.pc := rfl
@[simp] theorem State.setTrace_mem (f : Bool) : (s.setTrace f).mem = s.mem := rfl
@[simp] theorem State.setTrace_prog (f : Bool) : (s.setTrace f).prog = s.prog := rfl
@[simp] theorem State.setTrace_labels (f : Bool) : (s.setTrace f).labels = s.labels := rfl
@[simp] theorem State.setTrace_pending (f : Bool) : (s.setTrace f).pending = s.pending := rfl
@[simp] theorem State.setTrace_trace (f : Bool) : (s.setTrace f).trace = f := rfl
@[simp] theorem State.setTrace_faultKind (f : Bool) : (s.setTrace f).faultKind = s.faultKind := rfl
@[simp] theorem State.setTrace_faultPc (f : Bool) : (s.setTrace f).faultPc = s.faultPc := rfl
@[simp] theorem State.setTrace_out (f : Bool) : (s.setTrace f).out = s.out := rfl

/-! ### `raise` -/

@[simp] theorem State.raise_cfg (k : FaultKind) : (s.raise k).cfg = s.cfg := rfl
@[simp] theorem State.raise_os (k : FaultKind) : (s.raise k).os = s.os := rfl
@[simp] theorem State.raise_cs (k : FaultKind) : (s.raise k).cs = s.cs := rfl
@[simp] theorem State.raise_pc (k : FaultKind) : (s.raise k).pc = s.pc := rfl
@[simp] theorem State.raise_mem (k : FaultKind) : (s.raise k).mem = s.mem := rfl
@[simp] theorem State.raise_prog (k : FaultKind) : (s.raise k).prog = s.prog := rfl
@[simp] theorem State.raise_labels (k : FaultKind) : (s.raise k).labels = s.labels := rfl
@[simp] theorem State.raise_pending (k : FaultKind) : (s.raise k).pending = s.pending := rfl
@[simp] theorem State.raise_trace (k : FaultKind) : (s.raise k).trace = s.trace := rfl
@[simp] theorem State.raise_faultKind (k : FaultKind) : (s.raise k).faultKind = k := rfl
@[simp] theorem State.raise_faultPc (k : FaultKind) : (s.raise k).faultPc = s.pc := rfl
@[simp] theorem State.raise_out (k : FaultKind) : (s.raise k).out = s.out := rfl

end Sys2Proof.Machine
end

