-- ==== Sys2Proof/Laws/Stack.lean ====
section
/-! SUPPORT. The stack primitives on a stack written as the rules write it: the elements below, then the top ones. -/

namespace Sys2Proof.Machine

variable {s : State} {below : List Word} {a b c : Word}

theorem State.depth_eq (s : State) : s.depth = s.os.length := rfl

theorem State.cdepth_eq (s : State) : s.cdepth = s.cs.length := rfl

theorem State.npc_eq (s : State) : s.npc = s.pc + 1 := rfl

theorem State.lookup_eq (s : State) (id : Word) : s.lookup id = LabelTable.find s.labels id := rfl

/-- The test `depth == STACK_DEPTH` in the parameter's own terms. -/
theorem State.stackFull_iff : s.stackFull = true ↔ s.cfg.stackDepth = .finite s.os.length := by
  unfold State.stackFull State.depth
  cases s.cfg.stackDepth with
  | finite n =>
    rw [beq_iff_eq, Capacity.finite.injEq]
    exact eq_comm
  | inf => simp

theorem State.stackFull_eq_false : s.stackFull = false ↔ s.cfg.stackDepth ≠ .finite s.os.length := by
  rw [ne_eq, ← State.stackFull_iff, Bool.not_eq_true]

/-- The test `cdepth == CALL_DEPTH` in the parameter's own terms. -/
theorem State.callStackFull_iff : s.callStackFull = true ↔ s.cfg.callDepth = .finite s.cs.length := by
  unfold State.callStackFull State.cdepth
  cases s.cfg.callDepth with
  | finite n =>
    rw [beq_iff_eq, Capacity.finite.injEq]
    exact eq_comm
  | inf => simp

theorem State.callStackFull_eq_false : s.callStackFull = false ↔ s.cfg.callDepth ≠ .finite s.cs.length := by
  rw [ne_eq, ← State.callStackFull_iff, Bool.not_eq_true]

/-! ### One, two or three elements on top -/

theorem State.depth_of_one (h : s.os = below ++ [a]) : s.depth = below.length + 1 := by simp [State.depth, h]

theorem State.depth_of_two (h : s.os = below ++ [a, b]) : s.depth = below.length + 2 := by simp [State.depth, h]

theorem State.depth_of_three (h : s.os = below ++ [a, b, c]) : s.depth = below.length + 3 := by simp [State.depth, h]

theorem State.peek_of_one (h : s.os = below ++ [a]) : s.peek 0 = a := by simp [State.peek, h]

theorem State.peek_of_two (h : s.os = below ++ [a, b]) : s.peek 1 = a ∧ s.peek 0 = b := by simp [State.peek, h]

theorem State.peek_of_three (h : s.os = below ++ [a, b, c]) : s.peek 2 = a ∧ s.peek 1 = b ∧ s.peek 0 = c := by
  simp [State.peek, h]

theorem State.drop_of_one (h : s.os = below ++ [a]) : s.drop 1 = { s with os := below } := by
  simp [State.drop, h]

theorem State.drop_of_two (h : s.os = below ++ [a, b]) : s.drop 2 = { s with os := below } := by
  simp [State.drop, h]

theorem State.drop_of_three (h : s.os = below ++ [a, b, c]) : s.drop 3 = { s with os := below } := by
  simp [State.drop, h]

/-- A stack that is deep enough has its top elements; it is how the need of an instruction is used. -/
theorem exists_one_of_length {l : List Word} (h : ¬ l.length < 1) : ∃ below a, l = below ++ [a] := by
  rcases List.eq_nil_or_concat l with rfl | ⟨l', a, rfl⟩
  · simp at h
  · exact ⟨l', a, by simp⟩

theorem exists_two_of_length {l : List Word} (h : ¬ l.length < 2) : ∃ below a b, l = below ++ [a, b] := by
  obtain ⟨l', b, rfl⟩ := exists_one_of_length (l := l) (fun h1 => h (h1.trans Nat.one_lt_two))
  have h' : ¬ l'.length < 1 := by
    rw [List.length_append, List.length_singleton] at h
    omega
  obtain ⟨l'', a, rfl⟩ := exists_one_of_length h'
  exact ⟨l'', a, b, by simp⟩

theorem exists_three_of_length {l : List Word} (h : ¬ l.length < 3) : ∃ below a b c, l = below ++ [a, b, c] := by
  obtain ⟨l', c, rfl⟩ := exists_one_of_length (l := l) (fun h1 => h (by omega))
  have h' : ¬ l'.length < 2 := by
    rw [List.length_append, List.length_singleton] at h
    omega
  obtain ⟨l'', a, b, rfl⟩ := exists_two_of_length h'
  exact ⟨l'', a, b, c, by simp⟩

end Sys2Proof.Machine
end

