-- ==== Sys2Proof/Laws/Operands.lean ====
section
/-! SUPPORT. For each operand form of Machine/Operands.lean, everything it can answer, said once. -/

namespace Sys2Proof.Machine

theorem fail_eq (s : State) (k : FaultKind) : fail s k = .next { s with faultKind := k, faultPc := s.pc } := rfl

/-- A binary form underflows, or replaces the top two elements by one. -/
theorem binary_cases (f : Word → Word → Word) (s : State) :
    (s.os.length < 2 ∧ binary f s = fail s .stackUnderflow) ∨
    (∃ below lhs rhs, s.os = below ++ [lhs, rhs] ∧
      binary f s = .next { s with os := below ++ [f lhs rhs], pc := s.pc + 1 }) := by
  by_cases h : s.os.length < 2
  · exact .inl ⟨h, by simp [binary, State.depth, h]⟩
  · obtain ⟨below, lhs, rhs, hs⟩ := exists_two_of_length h
    refine .inr ⟨below, lhs, rhs, hs, ?_⟩
    have hp := State.peek_of_two hs
    simp [binary, State.depth_of_two hs, State.drop_of_two hs, hp.1, hp.2, State.push, State.advance, State.goto,
      State.npc]

/-- A dividing form underflows, or meets a zero divisor, or replaces the top two elements by one. -/
theorem dividing_cases (f : Word → Word → Word) (s : State) :
    (s.os.length < 2 ∧ dividing f s = fail s .stackUnderflow) ∨
    (∃ below lhs rhs, s.os = below ++ [lhs, rhs] ∧
      ((rhs.toInt = 0 ∧ dividing f s = fail s .arithmeticError) ∨
       (rhs.toInt ≠ 0 ∧ dividing f s = .next { s with os := below ++ [f lhs rhs], pc := s.pc + 1 }))) := by
  by_cases h : s.os.length < 2
  · exact .inl ⟨h, by simp [dividing, State.depth, h]⟩
  · obtain ⟨below, lhs, rhs, hs⟩ := exists_two_of_length h
    refine .inr ⟨below, lhs, rhs, hs, ?_⟩
    have hp := State.peek_of_two hs
    by_cases hz : rhs.toInt = 0
    · exact .inl ⟨hz, by simp [dividing, State.depth_of_two hs, hp.2, hz]⟩
    · refine .inr ⟨hz, ?_⟩
      simp [dividing, State.depth_of_two hs, State.drop_of_two hs, hp.1, hp.2, hz, State.push, State.advance,
        State.goto, State.npc]

/-- A unary form underflows, or replaces the top element. -/
theorem unary_cases (f : Word → Word) (s : State) :
    (s.os.length < 1 ∧ unary f s = fail s .stackUnderflow) ∨
    (∃ below a, s.os = below ++ [a] ∧ unary f s = .next { s with os := below ++ [f a], pc := s.pc + 1 }) := by
  by_cases h : s.os.length < 1
  · exact .inl ⟨h, by simp [unary, State.depth, h]⟩
  · obtain ⟨below, a, hs⟩ := exists_one_of_length h
    refine .inr ⟨below, a, hs, ?_⟩
    simp [unary, State.depth_of_one hs, State.drop_of_one hs, State.peek_of_one hs, State.push, State.advance,
      State.goto, State.npc]

/-- A pushing form finds the stack full, or pushes. -/
theorem pushing_cases (v : Word) (s : State) :
    (s.cfg.stackDepth = .finite s.os.length ∧ pushing v s = fail s .stackOverflow) ∨
    (s.cfg.stackDepth ≠ .finite s.os.length ∧
      pushing v s = .next { s with os := s.os ++ [v], pc := s.pc + 1 }) := by
  by_cases h : s.stackFull = true
  · exact .inl ⟨State.stackFull_iff.mp h, by simp [pushing, h]⟩
  · refine .inr ⟨fun e => h (State.stackFull_iff.mpr e), ?_⟩
    simp [pushing, h, State.push, State.advance, State.goto, State.npc]

/-- A branch underflows, or finds no label, or consumes the tested value and goes one of two ways. -/
theorem branch_cases (fires : Word → Bool) (id : Word) (s : State) :
    (s.os.length < 1 ∧ branch fires id s = fail s .stackUnderflow) ∨
    (∃ below v, s.os = below ++ [v] ∧
      ((s.lookup id = none ∧ branch fires id s = fail s .unknownLabel) ∨
       (∃ t, s.lookup id = some t ∧
         branch fires id s = .next { s with os := below, pc := if fires v then t else s.pc + 1 }))) := by
  by_cases h : s.os.length < 1
  · exact .inl ⟨h, by simp [branch, State.depth, h]⟩
  · obtain ⟨below, v, hs⟩ := exists_one_of_length h
    refine .inr ⟨below, v, hs, ?_⟩
    cases hl : s.lookup id with
    | none => exact .inl ⟨rfl, by simp [branch, State.depth_of_one hs, hl]⟩
    | some t =>
      refine .inr ⟨t, rfl, ?_⟩
      cases hf : fires v <;>
        simp [branch, State.depth_of_one hs, hl, State.peek_of_one hs, hf, State.drop_of_one hs, State.goto,
          State.advance, State.npc]

end Sys2Proof.Machine
end

