-- ==== Sys2Proof/Laws/PerInstr.lean ====
section
/-! SUPPORT. The families of statements made per instruction: one lemma per constructor of `Instr`. -/

namespace Sys2Proof.Laws

/-- The word the encoder writes for an instruction is accepted by a row of the opcode map, read by match and mask
(30_encoding.md R78). -/
def EncodedWordIsWellFormed.Statement (i : Instr) : Prop := WellFormed.word (encode i) = true

/-- A word of format N is accepted by its own row. -/
theorem formatN_accepts (op : Opcode) : (EncodingRow.formatN op).accepts (mkWord op 0) = true := by
  rw [EncodingRow.accepts, beq_iff_eq]
  exact BitVec.and_allOnes

/-- A word of format K, A, L or M is accepted by its own row, whatever its operand. -/
theorem formatPayload_accepts (op : Opcode) (x : Word) :
    (EncodingRow.formatPayload op).accepts (mkWord op x) = true := by
  rw [EncodingRow.accepts, beq_iff_eq]
  apply BitVec.eq_of_getLsbD_eq
  intro i hi
  show ((mkWord op x) &&& mkWord 0xFF 0).getLsbD i = (mkWord op 0).getLsbD i
  rw [BitVec.getLsbD_and, getLsbD_mkWord, getLsbD_mkWord, getLsbD_mkWord]
  split
  · simp
  · have h8 : i - 32 < 8 := by omega
    have : (0xFF : Opcode).getLsbD (i - 32) = true := by
      rw [show (0xFF : Opcode) = BitVec.allOnes 8 from rfl, BitVec.getLsbD_allOnes]
      simpa using h8
    rw [this, Bool.and_true]

theorem word_of_row {w : InstrWord} (r : EncodingRow) (hr : r ∈ encodingTable) (h : r.accepts w = true) :
    WellFormed.word w = true :=
  List.any_eq_true.mpr ⟨r, hr, h⟩

theorem EncodedWordIsWellFormed.push (k : Word) : EncodedWordIsWellFormed.Statement (.push k) :=
  word_of_row (.formatPayload 0x10) (by decide) (formatPayload_accepts 0x10 k)

theorem EncodedWordIsWellFormed.pop : EncodedWordIsWellFormed.Statement .pop :=
  word_of_row (.formatN 0x11) (by decide) (formatN_accepts 0x11)

theorem EncodedWordIsWellFormed.dup : EncodedWordIsWellFormed.Statement .dup :=
  word_of_row (.formatN 0x12) (by decide) (formatN_accepts 0x12)

theorem EncodedWordIsWellFormed.swap : EncodedWordIsWellFormed.Statement .swap :=
  word_of_row (.formatN 0x13) (by decide) (formatN_accepts 0x13)

theorem EncodedWordIsWellFormed.rot : EncodedWordIsWellFormed.Statement .rot :=
  word_of_row (.formatN 0x14) (by decide) (formatN_accepts 0x14)

theorem EncodedWordIsWellFormed.clear : EncodedWordIsWellFormed.Statement .clear :=
  word_of_row (.formatN 0x15) (by decide) (formatN_accepts 0x15)

theorem EncodedWordIsWellFormed.add : EncodedWordIsWellFormed.Statement .add :=
  word_of_row (.formatN 0x20) (by decide) (formatN_accepts 0x20)

theorem EncodedWordIsWellFormed.sub : EncodedWordIsWellFormed.Statement .sub :=
  word_of_row (.formatN 0x21) (by decide) (formatN_accepts 0x21)

theorem EncodedWordIsWellFormed.mul : EncodedWordIsWellFormed.Statement .mul :=
  word_of_row (.formatN 0x22) (by decide) (formatN_accepts 0x22)

theorem EncodedWordIsWellFormed.div : EncodedWordIsWellFormed.Statement .div :=
  word_of_row (.formatN 0x23) (by decide) (formatN_accepts 0x23)

theorem EncodedWordIsWellFormed.rem : EncodedWordIsWellFormed.Statement .rem :=
  word_of_row (.formatN 0x24) (by decide) (formatN_accepts 0x24)

theorem EncodedWordIsWellFormed.neg : EncodedWordIsWellFormed.Statement .neg :=
  word_of_row (.formatN 0x25) (by decide) (formatN_accepts 0x25)

theorem EncodedWordIsWellFormed.inc : EncodedWordIsWellFormed.Statement .inc :=
  word_of_row (.formatN 0x26) (by decide) (formatN_accepts 0x26)

theorem EncodedWordIsWellFormed.dec : EncodedWordIsWellFormed.Statement .dec :=
  word_of_row (.formatN 0x27) (by decide) (formatN_accepts 0x27)

theorem EncodedWordIsWellFormed.eq : EncodedWordIsWellFormed.Statement .eq :=
  word_of_row (.formatN 0x30) (by decide) (formatN_accepts 0x30)

theorem EncodedWordIsWellFormed.ne : EncodedWordIsWellFormed.Statement .ne :=
  word_of_row (.formatN 0x31) (by decide) (formatN_accepts 0x31)

theorem EncodedWordIsWellFormed.le : EncodedWordIsWellFormed.Statement .le :=
  word_of_row (.formatN 0x32) (by decide) (formatN_accepts 0x32)

theorem EncodedWordIsWellFormed.ge : EncodedWordIsWellFormed.Statement .ge :=
  word_of_row (.formatN 0x33) (by decide) (formatN_accepts 0x33)

theorem EncodedWordIsWellFormed.lt : EncodedWordIsWellFormed.Statement .lt :=
  word_of_row (.formatN 0x34) (by decide) (formatN_accepts 0x34)

theorem EncodedWordIsWellFormed.gt : EncodedWordIsWellFormed.Statement .gt :=
  word_of_row (.formatN 0x35) (by decide) (formatN_accepts 0x35)

theorem EncodedWordIsWellFormed.jump (id : Word) : EncodedWordIsWellFormed.Statement (.jump id) :=
  word_of_row (.formatPayload 0x40) (by decide) (formatPayload_accepts 0x40 id)

theorem EncodedWordIsWellFormed.brt (id : Word) : EncodedWordIsWellFormed.Statement (.brt id) :=
  word_of_row (.formatPayload 0x41) (by decide) (formatPayload_accepts 0x41 id)

theorem EncodedWordIsWellFormed.brz (id : Word) : EncodedWordIsWellFormed.Statement (.brz id) :=
  word_of_row (.formatPayload 0x42) (by decide) (formatPayload_accepts 0x42 id)

theorem EncodedWordIsWellFormed.call (id : Word) : EncodedWordIsWellFormed.Statement (.call id) :=
  word_of_row (.formatPayload 0x43) (by decide) (formatPayload_accepts 0x43 id)

theorem EncodedWordIsWellFormed.ret : EncodedWordIsWellFormed.Statement .ret :=
  word_of_row (.formatN 0x44) (by decide) (formatN_accepts 0x44)

theorem EncodedWordIsWellFormed.retV (k : Word) : EncodedWordIsWellFormed.Statement (.retV k) :=
  word_of_row (.formatPayload 0x45) (by decide) (formatPayload_accepts 0x45 k)

theorem EncodedWordIsWellFormed.label (id : Word) : EncodedWordIsWellFormed.Statement (.label id) :=
  word_of_row (.formatPayload 0x46) (by decide) (formatPayload_accepts 0x46 id)

theorem EncodedWordIsWellFormed.halt : EncodedWordIsWellFormed.Statement .halt :=
  word_of_row (.formatN 0x47) (by decide) (formatN_accepts 0x47)

theorem EncodedWordIsWellFormed.load (a : Word) : EncodedWordIsWellFormed.Statement (.load a) :=
  word_of_row (.formatPayload 0x50) (by decide) (formatPayload_accepts 0x50 a)

theorem EncodedWordIsWellFormed.store (a : Word) : EncodedWordIsWellFormed.Statement (.store a) :=
  word_of_row (.formatPayload 0x51) (by decide) (formatPayload_accepts 0x51 a)

theorem EncodedWordIsWellFormed.alloc (n : Word) : EncodedWordIsWellFormed.Statement (.alloc n) :=
  word_of_row (.formatPayload 0x52) (by decide) (formatPayload_accepts 0x52 n)

theorem EncodedWordIsWellFormed.free (a : Word) : EncodedWordIsWellFormed.Statement (.free a) :=
  word_of_row (.formatPayload 0x53) (by decide) (formatPayload_accepts 0x53 a)

theorem EncodedWordIsWellFormed.print : EncodedWordIsWellFormed.Statement .print :=
  word_of_row (.formatN 0x60) (by decide) (formatN_accepts 0x60)

theorem EncodedWordIsWellFormed.read : EncodedWordIsWellFormed.Statement .read :=
  word_of_row (.formatN 0x61) (by decide) (formatN_accepts 0x61)

theorem EncodedWordIsWellFormed.write (m : Word) : EncodedWordIsWellFormed.Statement (.write m) :=
  word_of_row (.formatPayload 0x62) (by decide) (formatPayload_accepts 0x62 m)

theorem EncodedWordIsWellFormed.scan : EncodedWordIsWellFormed.Statement .scan :=
  word_of_row (.formatN 0x63) (by decide) (formatN_accepts 0x63)

theorem EncodedWordIsWellFormed.and : EncodedWordIsWellFormed.Statement .and :=
  word_of_row (.formatN 0x70) (by decide) (formatN_accepts 0x70)

theorem EncodedWordIsWellFormed.or : EncodedWordIsWellFormed.Statement .or :=
  word_of_row (.formatN 0x71) (by decide) (formatN_accepts 0x71)

theorem EncodedWordIsWellFormed.xor : EncodedWordIsWellFormed.Statement .xor :=
  word_of_row (.formatN 0x72) (by decide) (formatN_accepts 0x72)

theorem EncodedWordIsWellFormed.not : EncodedWordIsWellFormed.Statement .not :=
  word_of_row (.formatN 0x73) (by decide) (formatN_accepts 0x73)

theorem EncodedWordIsWellFormed.shl : EncodedWordIsWellFormed.Statement .shl :=
  word_of_row (.formatN 0x74) (by decide) (formatN_accepts 0x74)

theorem EncodedWordIsWellFormed.shr : EncodedWordIsWellFormed.Statement .shr :=
  word_of_row (.formatN 0x75) (by decide) (formatN_accepts 0x75)

theorem EncodedWordIsWellFormed.bool : EncodedWordIsWellFormed.Statement .bool :=
  word_of_row (.formatN 0x76) (by decide) (formatN_accepts 0x76)

theorem EncodedWordIsWellFormed.dump : EncodedWordIsWellFormed.Statement .dump :=
  word_of_row (.formatN 0x80) (by decide) (formatN_accepts 0x80)

theorem EncodedWordIsWellFormed.trace (f : Bool) : EncodedWordIsWellFormed.Statement (.trace f) := by
  unfold EncodedWordIsWellFormed.Statement
  cases f <;> decide

end Sys2Proof.Laws
end

