-- ==== Sys2Proof/Laws/Step.lean ====
section
/-! SUPPORT. What a STEP and a bounded RUN can answer, said once. -/

namespace Sys2Proof.Machine

/-- The status is Ready exactly when nothing stops the engine (10_state.md R36). -/
theorem State.status_ready_iff (s : State) :
    s.status = .ready ↔ s.faultKind = .none ∧ s.pending = .none ∧ s.pc.toNat ≠ s.prog.length := by
  unfold State.status
  split_ifs <;> simp_all

/-- A STEP outside Ready does nothing; in Ready it fetches, and either stops for want of a word, or raises
IllegalInstruction, or runs the decoded instruction. -/
theorem step_cases (s : State) :
    (s.status ≠ .ready ∧ step s = .next s) ∨
    (s.status = .ready ∧
      ((s.fetch = none ∧ step s = .fault .fetchOutsideProgram) ∨
       (∃ w e, s.fetch = some w ∧ decode w = .error e ∧ step s = fail s .illegalInstruction) ∨
       (∃ w i, s.fetch = some w ∧ decode w = .ok i ∧ step s = exec i s))) := by
  unfold step
  cases hs : s.status with
  | ready =>
    refine .inr ⟨rfl, ?_⟩
    cases hf : s.fetch with
    | none => exact .inl ⟨rfl, rfl⟩
    | some w =>
      refine .inr ?_
      cases hd : decode w with
      | error e => exact .inl ⟨w, e, rfl, hd, by simp [hd]⟩
      | ok i => exact .inr ⟨w, i, rfl, hd, by simp [hd]⟩
  | awaitingInput => exact .inl ⟨by simp, rfl⟩
  | halted => exact .inl ⟨by simp, rfl⟩
  | faulted => exact .inl ⟨by simp, rfl⟩

theorem runFor_zero (s : State) : runFor 0 s = .next s := rfl

theorem runFor_of_not_ready {s : State} (h : s.status ≠ .ready) (n : Nat) : runFor n s = .next s := by
  cases n with
  | zero => rfl
  | succ n => unfold runFor; cases hs : s.status <;> simp_all

theorem runFor_succ_of_step {s t : State} (h : s.status = .ready) (hs : step s = .next t) (n : Nat) :
    runFor (n + 1) s = runFor n t := by
  simp [runFor, h, hs]

end Sys2Proof.Machine
end

