-- ==== Sys2Proof/Tests/Slice0.lean ====
section
/-! SUPPORT. The model's own tests. Every expected value of a `test_` theorem is taken from 95_test_vectors.md (the
vector's name stands in the docstring) or worked out by hand from the rule named; every word is written out from the
opcode map of 30_encoding.md R77. A `witness_` theorem shows states and operands that meet the hypotheses of the
statement it is named after, clause by clause. -/

namespace Sys2Proof.Machine.Tests

/-! ### Helpers -/

/-- The word `x` of a signed decimal. -/
def w (x : Int) : Word := BitVec.ofInt 32 x

/-- A stack of signed decimals, bottom first. -/
def ws (l : List Int) : List Word := l.map w

/-- A one-word program at its start, room everywhere, with the operand stack given. The word itself is not looked at by
`exec`. -/
def room (l : List Int) : State := { State.reset with os := ws l, prog := [0x1500000000#40] }

/-- `room` with both stacks at their capacity. -/
def tight (l : List Int) (calls : List Index) : State :=
  { room l with cs := calls, cfg := ⟨.finite l.length, .finite calls.length, ⟨100, by decide⟩⟩ }

/-- `Label(7)` at index 1 of a two-word program, with the operand stack given. -/
def labelled (l : List Int) : State :=
  { room l with prog := [0x1500000000#40, 0x4600000007#40], labels := [(7, 1)] }

def osOf : Result → Option (List Word)
  | .next t => some t.os
  | .fault _ => none
  | .refused _ => none

/-- What a fault vector looks at: the kind, the faulting index, and the operand stack left. -/
def faultOf : Result → Option (FaultKind × Index × List Word)
  | .next t => some (t.faultKind, t.faultPc, t.os)
  | .fault _ => none
  | .refused _ => none

def memOf : Result → Option Memory
  | .next t => some t.mem
  | .fault _ => none
  | .refused _ => none

def outOf : Result → Option (List Event)
  | .next t => some t.out
  | .fault _ => none
  | .refused _ => none

/-- Where control goes, and the two stacks. -/
def flowOf : Result → Option (Index × List Word × List Index)
  | .next t => some (t.pc, t.os, t.cs)
  | .fault _ => none
  | .refused _ => none

def decodesTo (x : InstrWord) (i : Instr) : Bool :=
  match decode x with
  | .ok j => j == i
  | .error _ => false

def illegal (x : InstrWord) : Bool :=
  match decode x with
  | .ok _ => false
  | .error _ => true

/-! ### Decoding: the word of every constructor (30_encoding.md R77, and 2.9 of the vectors) -/

theorem test_decode_stack :
    decodesTo 0x10FFFFFFFF#40 (.push (w (-1))) ∧ decodesTo 0x1100000000#40 .pop ∧ decodesTo 0x1200000000#40 .dup ∧
    decodesTo 0x1300000000#40 .swap ∧ decodesTo 0x1400000000#40 .rot ∧ decodesTo 0x1500000000#40 .clear := by decide

theorem test_decode_arithmetic :
    decodesTo 0x2000000000#40 .add ∧ decodesTo 0x2100000000#40 .sub ∧ decodesTo 0x2200000000#40 .mul ∧
    decodesTo 0x2300000000#40 .div ∧ decodesTo 0x2400000000#40 .rem ∧ decodesTo 0x2500000000#40 .neg ∧
    decodesTo 0x2600000000#40 .inc ∧ decodesTo 0x2700000000#40 .dec := by decide

theorem test_decode_comparison :
    decodesTo 0x3000000000#40 .eq ∧ decodesTo 0x3100000000#40 .ne ∧ decodesTo 0x3200000000#40 .le ∧
    decodesTo 0x3300000000#40 .ge ∧ decodesTo 0x3400000000#40 .lt ∧ decodesTo 0x3500000000#40 .gt := by decide

theorem test_decode_control :
    decodesTo 0x4000000003#40 (.jump 3) ∧ decodesTo 0x4100000007#40 (.brt 7) ∧ decodesTo 0x4200000007#40 (.brz 7) ∧
    decodesTo 0x4300000009#40 (.call 9) ∧ decodesTo 0x4400000000#40 .ret ∧ decodesTo 0x4500000005#40 (.retV 5) ∧
    decodesTo 0x46FFFFFFFF#40 (.label 4294967295) ∧ decodesTo 0x4700000000#40 .halt := by decide

theorem test_decode_memory :
    decodesTo 0x50FFFFFFFF#40 (.load (w (-1))) ∧ decodesTo 0x517FFFFFFF#40 (.store 2147483647) ∧
    decodesTo 0x52FFFFFFFB#40 (.alloc (w (-5))) ∧ decodesTo 0x5300000009#40 (.free 9) := by decide

theorem test_decode_io :
    decodesTo 0x6000000000#40 .print ∧ decodesTo 0x6100000000#40 .read ∧ decodesTo 0x6200000000#40 (.write 0) ∧
    decodesTo 0x6300000000#40 .scan := by decide

theorem test_decode_bitwise :
    decodesTo 0x7000000000#40 .and ∧ decodesTo 0x7100000000#40 .or ∧ decodesTo 0x7200000000#40 .xor ∧
    decodesTo 0x7300000000#40 .not ∧ decodesTo 0x7400000000#40 .shl ∧ decodesTo 0x7500000000#40 .shr ∧
    decodesTo 0x7600000000#40 .bool := by decide

theorem test_decode_debug :
    decodesTo 0x8000000000#40 .dump ∧ decodesTo 0x8100000000#40 (.trace false) ∧
    decodesTo 0x8100000001#40 (.trace true) := by decide

/-- The opcode and the operand are read from the right ends of the word: every bit of it written out. -/
theorem test_decode_bit_by_bit :
    decodesTo 0b0101000110000000000000000000000000000001#40 (.store 0x80000001#32) ∧
    decodesTo 0b0001000001000000000000000000000000000000#40 (.push 0x40000000#32) := by decide

/-- 2.9: the illegal words. -/
theorem test_decode_illegal_opcodes :
    illegal 0x0000000000#40 ∧ illegal 0xFFFFFFFFFF#40 ∧ illegal 0x0F00000000#40 ∧ illegal 0x1600000000#40 ∧
    illegal 0x2800000000#40 ∧ illegal 0x3600000000#40 ∧ illegal 0x4800000000#40 ∧ illegal 0x5400000000#40 ∧
    illegal 0x6400000000#40 ∧ illegal 0x7700000000#40 ∧ illegal 0x8200000000#40 := by decide

theorem test_decode_illegal_operands :
    illegal 0x1100000001#40 ∧ illegal 0x2000000001#40 ∧ illegal 0x4400000001#40 ∧ illegal 0x47000000FF#40 ∧
    illegal 0x8100000002#40 ∧ illegal 0x81FFFFFFFF#40 := by decide

/-- A row's bits as the opcode table numbers them. -/
theorem test_decodeTableWord :
    decodeTableWord 40 0x4500000005 = some (.retV 5) ∧ decodeTableWord 40 0x1100000001 = none := by decide

/-! ### Well-formedness: each check refuses an ill-formed term -/

theorem smoke_unassigned_opcode : WellFormed.word 0x1600000000#40 = false := by decide

theorem smoke_operand_not_zero : WellFormed.word 0x1100000001#40 = false := by decide

theorem smoke_flag_bits_not_zero : WellFormed.word 0x8100000002#40 = false := by decide

theorem smoke_accepts : WellFormed.word 0x8100000001#40 ∧ WellFormed.word 0x46FFFFFFFF#40 := by decide

/-- P8a carries `Label(1)` twice. -/
theorem smoke_duplicate_label :
    WellFormed.program Config.document [0x4600000001#40, 0x1000000001#40, 0x4600000001#40] = false ∧
    WellFormed.program Config.document [0x4600000001#40, 0x1000000001#40, 0x4600000002#40] = true := by decide

theorem smoke_program_too_long :
    WellFormed.program ⟨.inf, .inf, 1⟩ [0x1100000000#40, 0x1100000000#40] = false ∧
    WellFormed.program ⟨.inf, .inf, 1⟩ [0x1100000000#40] = true := by decide

/-! ### Stack manipulation -/

/-- V-S2, V-S3. -/
theorem test_push : osOf (exec (.push (w (-1))) (room [1])) = some (ws [1, -1]) ∧
    osOf (exec (.push 0x80000000#32) (room [])) = some (ws [-2147483648]) := by decide

/-- V-S15. -/
theorem test_push_full : faultOf (exec (.push 3) (tight [1, 2] [])) = some (.stackOverflow, 0, ws [1, 2]) := by decide

/-- V-S4, V-S5. -/
theorem test_pop : osOf (exec .pop (room [1, 2])) = some (ws [1]) ∧
    faultOf (exec .pop (room [])) = some (.stackUnderflow, 0, []) := by decide

/-- V-S6, V-S7, V-S16. -/
theorem test_dup : osOf (exec .dup (room [7])) = some (ws [7, 7]) ∧
    faultOf (exec .dup (room [])) = some (.stackUnderflow, 0, []) ∧
    faultOf (exec .dup (tight [1, 2] [])) = some (.stackOverflow, 0, ws [1, 2]) := by decide

/-- V-S17, V-S9. -/
theorem test_swap : osOf (exec .swap (tight [1, 2] [])) = some (ws [2, 1]) ∧
    faultOf (exec .swap (room [1])) = some (.stackUnderflow, 0, ws [1]) := by decide

/-- V-S11, V-S12. -/
theorem test_rot : osOf (exec .rot (room [9, 1, 2, 3])) = some (ws [9, 2, 3, 1]) ∧
    faultOf (exec .rot (room [1, 2])) = some (.stackUnderflow, 0, ws [1, 2]) := by decide

/-- V-S13, V-S14. -/
theorem test_clear : osOf (exec .clear (room [4, 5, 6])) = some [] ∧
    flowOf (exec .clear (room [])) = some (1, [], []) := by decide

/-! ### Arithmetic -/

/-- V-A2, V-A3, V-A4, and `Add` on `[9, 10, 20]`. -/
theorem test_add : osOf (exec .add (room [2147483647, 1])) = some (ws [-2147483648]) ∧
    osOf (exec .add (room [-2147483648, -1])) = some (ws [2147483647]) ∧
    osOf (exec .add (room [9, 10, 20])) = some (ws [9, 30]) ∧
    faultOf (exec .add (room [5])) = some (.stackUnderflow, 0, ws [5]) := by decide

/-- V-A6, V-A8. -/
theorem test_sub : osOf (exec .sub (room [20, 30])) = some (ws [-10]) ∧
    osOf (exec .sub (room [0, -2147483648])) = some (ws [-2147483648]) := by decide

/-- V-A9, V-A11, V-A12. -/
theorem test_mul : osOf (exec .mul (room [6, -7])) = some (ws [-42]) ∧
    osOf (exec .mul (room [46341, 46341])) = some (ws [-2147479015]) ∧
    osOf (exec .mul (room [-2147483648, -1])) = some (ws [-2147483648]) := by decide

/-- V-A14 to V-A18. -/
theorem test_div : osOf (exec .div (room [7, 2])) = some (ws [3]) ∧ osOf (exec .div (room [-7, 2])) = some (ws [-3]) ∧
    osOf (exec .div (room [7, -2])) = some (ws [-3]) ∧ osOf (exec .div (room [-7, -2])) = some (ws [3]) ∧
    osOf (exec .div (room [-2147483648, -1])) = some (ws [-2147483648]) := by decide

/-- V-A19, V-A21. -/
theorem test_div_faults : faultOf (exec .div (room [7, 0])) = some (.arithmeticError, 0, ws [7, 0]) ∧
    faultOf (exec .div (room [0])) = some (.stackUnderflow, 0, ws [0]) := by decide

/-- V-A23 to V-A27. -/
theorem test_rem : osOf (exec .rem (room [7, 2])) = some (ws [1]) ∧ osOf (exec .rem (room [-7, 2])) = some (ws [-1]) ∧
    osOf (exec .rem (room [7, -2])) = some (ws [1]) ∧ osOf (exec .rem (room [-7, -2])) = some (ws [-1]) ∧
    osOf (exec .rem (room [-2147483648, -1])) = some (ws [0]) := by decide

/-- V-A28. -/
theorem test_rem_fault : faultOf (exec .rem (room [7, 0])) = some (.arithmeticError, 0, ws [7, 0]) := by decide

/-- V-A29, V-A31. -/
theorem test_neg : osOf (exec .neg (room [5])) = some (ws [-5]) ∧
    osOf (exec .neg (room [-2147483648])) = some (ws [-2147483648]) := by decide

/-- V-A34, V-A35. -/
theorem test_inc : osOf (exec .inc (room [2147483647])) = some (ws [-2147483648]) ∧
    osOf (exec .inc (room [-1])) = some (ws [0]) := by decide

/-- V-A37, V-A38. -/
theorem test_dec : osOf (exec .dec (room [0])) = some (ws [-1]) ∧
    osOf (exec .dec (room [-2147483648])) = some (ws [2147483647]) := by decide

/-! ### Comparison: the rows of 2.3 that tell order and sign apart -/

theorem test_eq : osOf (exec .eq (room [4, 4])) = some (ws [1]) ∧ osOf (exec .eq (room [3, 5])) = some (ws [0]) := by
  decide

theorem test_ne : osOf (exec .ne (room [3, 5])) = some (ws [1]) ∧ osOf (exec .ne (room [4, 4])) = some (ws [0]) := by
  decide

theorem test_le : osOf (exec .le (room [-1, 0])) = some (ws [1]) ∧ osOf (exec .le (room [4, 4])) = some (ws [1]) ∧
    osOf (exec .le (room [5, 3])) = some (ws [0]) := by decide

theorem test_ge : osOf (exec .ge (room [-1, 0])) = some (ws [0]) ∧ osOf (exec .ge (room [4, 4])) = some (ws [1]) ∧
    osOf (exec .ge (room [5, 3])) = some (ws [1]) := by decide

/-- The last row of 2.3, and V-K1. -/
theorem test_lt : osOf (exec .lt (room [-2147483648, 2147483647])) = some (ws [1]) ∧
    osOf (exec .lt (room [4, 4])) = some (ws [0]) ∧
    faultOf (exec .lt (room [1])) = some (.stackUnderflow, 0, ws [1]) := by decide

theorem test_gt : osOf (exec .gt (room [-1, 0])) = some (ws [0]) ∧ osOf (exec .gt (room [5, 3])) = some (ws [1]) := by
  decide

/-! ### Control flow -/

/-- V-C5. -/
theorem test_jump : flowOf (exec (.jump 7) (labelled [])) = some (1, [], []) ∧
    faultOf (exec (.jump 9) (labelled [])) = some (.unknownLabel, 0, []) := by decide

/-- V-C3. -/
theorem test_brt : flowOf (exec (.brt 7) (labelled [-2147483648])) = some (1, [], []) ∧
    flowOf (exec (.brt 7) { labelled [0] with pc := 4 }) = some (5, [], []) := by decide

/-- V-C4. -/
theorem test_brt_faults : faultOf (exec (.brt 7) (labelled [])) = some (.stackUnderflow, 0, []) ∧
    faultOf (exec (.brt 9) (labelled [0])) = some (.unknownLabel, 0, ws [0]) ∧
    faultOf (exec (.brt 9) (labelled [])) = some (.stackUnderflow, 0, []) := by decide

/-- V-C3. -/
theorem test_brz : flowOf (exec (.brz 7) { labelled [2] with pc := 4 }) = some (5, [], []) ∧
    flowOf (exec (.brz 7) { labelled [0] with pc := 4 }) = some (1, [], []) := by decide

/-- V-C6, first step; V-C8. -/
theorem test_call : flowOf (exec (.call 7) (labelled [])) = some (1, [], [1]) ∧
    faultOf (exec (.call 9) (labelled [3])) = some (.unknownLabel, 0, ws [3]) := by decide

/-- V-C9, last step. -/
theorem test_call_full : faultOf (exec (.call 7) { labelled [] with cs := [2, 2], cfg := ⟨.inf, .finite 2, 9⟩ }) =
    some (.callStackOverflow, 0, []) := by decide

/-- P3, step 51; V-C7. -/
theorem test_ret : flowOf (exec .ret { room [6] with cs := [3, 18, 18, 18] }) = some (18, ws [6], [3, 18, 18]) ∧
    faultOf (exec .ret (room [])) = some (.callStackUnderflow, 0, []) := by decide

/-- V-C6, V-C7. -/
theorem test_retV : flowOf (exec (.retV 5) { room [] with cs := [1] }) = some (1, ws [5], []) ∧
    faultOf (exec (.retV 5) (room [4])) = some (.callStackUnderflow, 0, ws [4]) ∧
    flowOf (exec (.retV 5) (tight [] [1])) = some (0, [], [1]) := by decide

/-- V-C11. -/
theorem test_label : flowOf (exec (.label 1) { room [8] with pc := 4 }) = some (5, ws [8], []) := by decide

/-- V-C10: the length is the end, and the call stack stays. -/
theorem test_halt : flowOf (exec .halt { room [] with cs := [1], prog := [0, 0, 0, 0] }) = some (4, [], [1]) := by
  decide

/-! ### Memory -/

/-- V-M4, P6. -/
theorem test_load : osOf (exec (.load 5) { room [] with mem := [(5, 99)] }) = some (ws [99]) ∧
    osOf (exec (.load 6) { room [99] with mem := [(5, 99)] }) = some (ws [99, 0]) ∧
    faultOf (exec (.load 3) (tight [] [])) = some (.stackOverflow, 0, []) := by decide

/-- V-M1, index 5; V-M5; V-M3. -/
theorem test_store : memOf (exec (.store 0x7FFFFFFF#32) { room [7] with mem := [(4294967295, 7)] }) =
      some [(2147483647, 7), (4294967295, 7)] ∧
    memOf (exec (.store 4) (room [0])) = some [(4, 0)] ∧
    faultOf (exec (.store 3) (room [])) = some (.stackUnderflow, 0, []) := by decide

/-- V-M2. -/
theorem test_alloc : memOf (exec (.alloc 2) { room [] with mem := [(0, 7), (3, 9)] }) =
    some [(0, 0), (1, 0), (3, 9)] := by decide

/-- V-M1, indices 3, 4 and 6. -/
theorem test_alloc_counts : memOf (exec (.alloc (w (-5))) { room [] with mem := [(4294967295, 7)] }) =
      some [(4294967295, 7)] ∧
    memOf (exec (.alloc 0) { room [] with mem := [(4294967295, 7)] }) = some [(4294967295, 7)] ∧
    memOf (exec (.alloc 3) { room [] with mem := [(2147483647, 7), (4294967295, 7)] }) =
      some [(0, 0), (1, 0), (2, 0), (2147483647, 7), (4294967295, 7)] := by decide

/-- V-M1, indices 7 and 8. -/
theorem test_free : memOf (exec (.free 1) { room [] with mem := [(0, 0), (1, 0), (2, 0)] }) = some [(0, 0), (2, 0)] ∧
    memOf (exec (.free 9) { room [] with mem := [(0, 0)] }) = some [(0, 0)] := by decide

/-- The canonical form refuses a memory out of order and one with an address of no word. -/
theorem test_memory_wf : Memory.wf [(0, 1), (4294967295, 0)] ∧ ¬ Memory.wf [(1, 0), (0, 0)] ∧
    ¬ Memory.wf [(1, 0), (1, 0)] ∧ ¬ Memory.wf [(4294967296, 0)] := by decide

/-! ### Input and output, debugging -/

/-- V-I1. -/
theorem test_print : outOf (exec .print (room [])) = some [.printEmpty] ∧
    outOf (exec .print { room [-3] with out := [.printEmpty] }) = some [.printEmpty, .print (w (-3))] ∧
    flowOf (exec .print (room [30])) = some (1, ws [30], []) := by decide

/-- V-I2: the request, then the fault that leaves it unset. -/
theorem test_read : exec .read (room [1]) = .next { room [1] with pending := .numeric, pc := 1 } ∧
    exec .read (tight [1] []) = .next { tight [1] [] with faultKind := .stackOverflow } := ⟨rfl, rfl⟩

/-- V-I1. -/
theorem test_write : outOf (exec (.write 0xFFFFFFFF#32) (room [])) = some [.write 4294967295] := by decide

/-- V-I4. -/
theorem test_scan : exec .scan (tight [] []) = .next { tight [] [] with pending := .line, pc := 1 } := rfl

/-- V-I2, V-I3, V-I4, V-I5. -/
theorem test_deliver :
    deliverCommand 9 { room [1] with pending := .numeric } = room [1, 9] ∧
    deliverCommand 12345 { room [] with pending := .line } = room [] ∧ deliverCommand 8 (room [-7]) = room [-7] := by
  decide

/-- V-D2. -/
theorem test_dump : outOf (exec .dump { room [1, 2] with mem := [(3, 4)] }) = some [.dump (ws [1, 2]) [(3, 4)]] := by
  decide

/-- V-D1: the flag is set, not inverted. -/
theorem test_trace :
    exec (.trace true) { room [] with trace := true } = .next { room [] with trace := true, pc := 1 } ∧
    exec (.trace false) { room [] with trace := true } = .next { room [] with pc := 1 } := ⟨rfl, rfl⟩

/-! ### Bitwise and logical -/

/-- V-B2, V-B3. -/
theorem test_and : osOf (exec .and (room [2, 1])) = some (ws [0]) ∧
    osOf (exec .and (room [-1, 85])) = some (ws [85]) := by decide

/-- V-B4. -/
theorem test_or : osOf (exec .or (room [12, 10])) = some (ws [14]) := by decide

/-- V-B8, V-B9. -/
theorem test_xor : osOf (exec .xor (room [5, -1])) = some (ws [-6]) ∧
    faultOf (exec .xor (room [3])) = some (.stackUnderflow, 0, ws [3]) := by decide

/-- V-B11, V-B13. -/
theorem test_not : osOf (exec .not (room [0])) = some (ws [-1]) ∧ osOf (exec .not (room [1])) = some (ws [-2]) := by
  decide

/-- V-B14 to V-B19. -/
theorem test_shl : osOf (exec .shl (room [3, 4])) = some (ws [48]) ∧
    osOf (exec .shl (room [1, 31])) = some (ws [-2147483648]) ∧ osOf (exec .shl (room [1, 32])) = some (ws [1]) ∧
    osOf (exec .shl (room [1, 33])) = some (ws [2]) ∧ osOf (exec .shl (room [1, -1])) = some (ws [-2147483648]) ∧
    osOf (exec .shl (room [-1, 1])) = some (ws [-2]) := by decide

/-- V-B20 to V-B26. -/
theorem test_shr : osOf (exec .shr (room [48, 4])) = some (ws [3]) ∧ osOf (exec .shr (room [-8, 1])) = some (ws [-4]) ∧
    osOf (exec .shr (room [-7, 1])) = some (ws [-4]) ∧
    osOf (exec .shr (room [-2147483648, 31])) = some (ws [-1]) ∧
    osOf (exec .shr (room [2147483647, 31])) = some (ws [0]) ∧ osOf (exec .shr (room [16, 36])) = some (ws [1]) := by
  decide

/-- V-B28, V-B30, V-B31. -/
theorem test_bool : osOf (exec .bool (room [0])) = some (ws [0]) ∧
    osOf (exec .bool (room [-2147483648])) = some (ws [1]) ∧
    faultOf (exec .bool (room [])) = some (.stackUnderflow, 0, []) := by decide

/-! ### The step, the status, LOAD -/

/-- P9, second step: a word that does not decode. -/
theorem test_step_illegal :
    faultOf (step { room [1] with prog := [0x1000000001#40, 0x1100000001#40, 0x4700000000#40], pc := 1 }) =
      some (.illegalInstruction, 1, ws [1]) := by decide

/-- V-F2, V-F3. -/
theorem test_status : State.reset.status = .halted ∧ (room []).status = .ready ∧
    ({ room [] with pending := .numeric, pc := 1 } : State).status = .awaitingInput ∧
    ({ room [] with pending := .numeric, faultKind := .stackUnderflow } : State).status = .faulted := by decide

/-- V-F4. -/
theorem test_fault_codes :
    [FaultKind.none, .stackUnderflow, .arithmeticError, .unknownLabel, .duplicateLabel, .callStackUnderflow,
      .inputParseError, .stackOverflow, .callStackOverflow, .illegalInstruction].map FaultKind.code =
        [0, 1, 2, 3, 4, 5, 6, 7, 8, 9] := by decide

/-- P8a, after LOAD. -/
theorem test_load_duplicate :
    let t := loaded [0x4600000001#40, 0x1000000001#40, 0x4600000001#40, 0x4700000000#40] (room [5])
    t.status = .faulted ∧ t.faultKind = .duplicateLabel ∧ t.faultPc = 2 ∧ t.pc = 0 ∧ t.labels = [(1, 0)] ∧
      t.os = [] := by decide

/-- V-C1: `LT` holds 7 at 3, and the status is Ready. -/
theorem test_load_labels :
    let t := loaded [0x1000000001#40, 0x4100000007#40, 0x100000006F#40, 0x4600000007#40] State.reset
    t.labels = [(7, 3)] ∧ t.status = .ready ∧ t.faultKind = .none := by decide

/-- 70_reset_and_hazards.md R231: the longest program that LOAD takes, and one word more. -/
theorem test_load_too_long :
    loadCommand [0] { State.reset with cfg := ⟨.inf, .inf, 0⟩ } = .refused .programTooLong ∧
    ∃ t, loadCommand [0] { State.reset with cfg := ⟨.inf, .inf, 1⟩ } = .next t := ⟨rfl, _, rfl⟩

/-- An instruction placed by the interface is the next one that runs. -/
theorem test_withFetchWord : step (State.reset.withFetchWord 40 0x100000000A) =
    exec (.push 10) (State.reset.withFetchWord 40 0x100000000A) ∧
    osOf (step (State.reset.withFetchWord 40 0x100000000A)) = some (ws [10]) := ⟨rfl, by decide⟩

/-! ### Witnesses: the hypotheses of each statement are met -/

/-- Two elements on the stack, their sign of order, and one element too few. -/
abbrev TwoOperandStates : Prop :=
  (room [5]).os.length < 2 ∧ (room [3, 5]).os = [] ++ [w 3, w 5] ∧ (room [9, 3, 5]).os = [w 9] ++ [w 3, w 5]

/-- One element on the stack, and none. -/
abbrev OneOperandStates : Prop := (room []).os.length < 1 ∧ (room [9, 5]).os = [w 9] ++ [w 5]

theorem two_operand_states : TwoOperandStates := by decide

theorem one_operand_states : OneOperandStates := by decide

theorem witness_DecodeAndEncodeAreInverse : decode 0x8100000001#40 = .ok (.trace true) := rfl

theorem witness_DecodeAcceptsExactlyTheOpcodeMap :
    ∃ r ∈ encodingTable, r.accepts 0x8100000001#40 = true := by decide

/-- The opcodes on both sides of each boundary of R79, with the operand 0. -/
theorem witness_IllegalWordsAreTheListedOnes :
    illegal 0x1500000001#40 ∧ ({ room [] with prog := [0x1500000001#40] } : State).status = .ready ∧
    ({ room [] with prog := [0x1500000001#40] } : State).fetch = some 0x1500000001#40 ∧
    [0x0F, 0x16, 0x1F, 0x28, 0x2F, 0x36, 0x3F, 0x48, 0x4F, 0x54, 0x5F, 0x64, 0x6F, 0x77, 0x7F, 0x82, 0xFF].all
      (fun op => illegal (mkWord op 0)) ∧
    [0x10, 0x15, 0x20, 0x27, 0x30, 0x35, 0x40, 0x47, 0x50, 0x53, 0x60, 0x63, 0x70, 0x76, 0x80, 0x81].all
      (fun op => !illegal (mkWord op 0)) ∧
    [0x11, 0x15, 0x20, 0x27, 0x30, 0x35, 0x44, 0x47, 0x60, 0x61, 0x63, 0x70, 0x76, 0x80, 0x81].all
      (fun op => illegal (mkWord op 2)) := by decide

theorem witness_DispatchUnitsFitTheirStackEffects :
    unitOf .shr = some .aluBinary ∧ unitOf .bool = some .aluUnary ∧ unitOf .rot = some .stack := by decide

theorem witness_StepRunsTheDecodedInstruction :
    (room []).faultKind = .none ∧ (room []).pending = .none ∧
    (room []).prog[(room []).pc.toNat]? = some 0x1500000000#40 ∧ decode 0x1500000000#40 = .ok .clear :=
  ⟨rfl, rfl, rfl, rfl⟩

/-- A one-word program whose word is illegal. -/
def illegalNext : State := { room [] with prog := [0x1500000001#40] }

theorem witness_IllegalWordRaisesIllegalInstruction :
    illegalNext.faultKind = .none ∧ illegalNext.pending = .none ∧
    illegalNext.prog[illegalNext.pc.toNat]? = some 0x1500000001#40 ∧
    ∃ e, decode 0x1500000001#40 = .error e := ⟨rfl, rfl, rfl, _, rfl⟩

theorem witness_StepExecutesOneInstructionOrNothing :
    ({ room [] with pending := .line } : State).status = .awaitingInput ∧ State.reset.status = .halted ∧
    ({ room [] with faultKind := .stackUnderflow } : State).status = .faulted ∧
    (room []).status = .ready ∧ (room []).prog[(room []).pc.toNat]? = some 0x1500000000#40 ∧
    illegalNext.status = .ready ∧ illegalNext.prog[illegalNext.pc.toNat]? = some 0x1500000001#40 := by decide

theorem witness_StatusFollowsItsPriority :
    ({ room [] with pending := .numeric, pc := 1 } : State).status = .awaitingInput ∧
    ({ room [] with pending := .numeric, pc := 1 } : State).pc.toNat = (room []).prog.length := by decide

theorem witness_StatusTransitionsAreThoseOfTheDiagram :
    (∃ t, command (.deliver 3) { room [] with pending := .numeric } = .next t ∧ t.status = .ready) ∧
    ({ room [] with pending := .numeric } : State).status = .awaitingInput ∧
    (∃ t, command .step { room [] with pending := .numeric } = .next t) ∧
    (∃ t, command (.deliver 3) { room [] with faultKind := .arithmeticError } = .next t ∧ t.status = .faulted) ∧
    ∃ t, command (.load []) (room []) = .next t ∧ t.status = .halted :=
  ⟨⟨_, rfl, rfl⟩, rfl, ⟨_, rfl⟩, ⟨_, rfl, rfl⟩, _, rfl, rfl⟩

theorem witness_ResetLeavesEveryElementAtItsResetValue :
    ∃ t, command .reset (tight [1, 2] [1]) = .next t ∧ t.os = [] := ⟨_, rfl, rfl⟩

/-- The capacity is met at its boundary: 0 elements in 0 places, and one place left. -/
theorem witness_PushAppendsItsConstant :
    OsFull (tight [] []) ∧ OsFull (tight [1, 2] []) ∧ ¬ OsFull { tight [1, 2] [] with os := ws [1] } ∧
    ¬ OsFull (room []) := by decide

theorem witness_PopAndClearRemoveElements : OneOperandStates := one_operand_states

theorem witness_DupCopiesTheTop : OneOperandStates ∧ OsFull (tight [9, 5] []) ∧
    (tight [9, 5] []).os = [w 9] ++ [w 5] ∧ ¬ OsFull (room [9, 5]) := by decide

theorem witness_SwapAndRotPermuteTheTop : TwoOperandStates ∧ (room [3, 5]).os.length < 3 ∧
    (room [1, 2, 3]).os = [] ++ [w 1, w 2, w 3] := by decide

theorem witness_SwapTwiceAndRotThriceRestore : 2 ≤ (room [3, 5]).os.length ∧ 3 ≤ (room [1, 2, 3]).os.length := by decide

theorem witness_AddSubMulWrap : TwoOperandStates := two_operand_states

theorem witness_DivAndRemTruncateOrRaise : TwoOperandStates ∧ (w 0).toInt = 0 ∧ (w 5).toInt ≠ 0 := by decide

theorem witness_NegIncDecWrap : OneOperandStates := one_operand_states

theorem witness_QuotientAndRemainderBelongTogether :
    (room [-7, 2]).os = [] ++ [w (-7), w 2] ∧ (w 2).toInt ≠ 0 ∧ ¬ (w (-7) = 0x80000000#32 ∧ w 2 = 0xFFFFFFFF#32) ∧
    (room [-2147483648, -1]).os = [] ++ [0x80000000#32, 0xFFFFFFFF#32] ∧ (0xFFFFFFFF#32).toInt ≠ 0 := by decide

theorem witness_ComparisonsPushOneOrZero : TwoOperandStates := two_operand_states

/-- The relation holds of `[4, 4]` and does not hold of `[3, 5]`; the label of the branch is defined. -/
theorem witness_BranchAfterComparisonFollowsTheRelation :
    ((Instr.eq = .eq) ∧ ((· = ·) : Int → Int → Prop) = (· = ·)) ∧
    (labelled [4, 4]).os = [] ++ [w 4, w 4] ∧ (w 4).toInt = (w 4).toInt ∧
    (labelled [3, 5]).os = [] ++ [w 3, w 5] ∧ ¬ (w 3).toInt = (w 5).toInt ∧
    (labelled [4, 4]).lookup 7 = some 1 := ⟨⟨rfl, rfl⟩, by decide⟩

theorem witness_AndOrXorNotActBitByBit : TwoOperandStates ∧ OneOperandStates :=
  ⟨two_operand_states, one_operand_states⟩

/-- Both sides of each boundary of the two shifts, for an amount of 31 and bit 31. -/
theorem witness_ShiftsMoveBitsByTheLowFiveBits : TwoOperandStates ∧ (w (-1)).toNat % 32 ≤ 31 ∧
    ¬ (w (-1)).toNat % 32 ≤ 30 ∧ 0 + (w (-1)).toNat % 32 < 32 ∧ ¬ 1 + (w (-1)).toNat % 32 < 32 := by decide

theorem witness_BoolCoercesToOneOrZero : OneOperandStates := one_operand_states

theorem witness_JumpGoesToTheMarker : (labelled []).lookup 9 = none ∧ (labelled []).lookup 7 = some 1 := by decide

theorem witness_BranchesConsumeTheTestedValue : OneOperandStates ∧
    (labelled [0]).os = [] ++ [w 0] ∧ (labelled [5]).os = [] ++ [w 5] ∧ (w 5 ≠ 0 ∧ ¬ w 0 ≠ 0) ∧
    (labelled [0]).lookup 9 = none ∧ (labelled [0]).lookup 7 = some 1 := by decide

theorem witness_CallSavesTheNextIndex : (labelled []).lookup 9 = none ∧ (labelled []).lookup 7 = some 1 ∧
    ¬ CsFull (labelled []) ∧
    CsFull { labelled [] with cfg := ⟨.inf, .finite 0, 9⟩ } ∧
    ¬ CsFull { labelled [] with cfg := ⟨.inf, .finite 1, 9⟩ } := by decide

theorem witness_RetAndRetVPopTheReturnAddress : (room []).cs = [] ∧ (tight [] [1]).cs = [] ++ [1] ∧
    OsFull (tight [] [1]) ∧ ({ room [] with cs := [1] } : State).cs = [] ++ [1] ∧
    ¬ OsFull { room [] with cs := [1] } := by decide

theorem witness_RetUndoesCall : (labelled []).lookup 7 = some 1 ∧ ¬ CsFull (labelled []) := by decide

theorem witness_HaltEndsTheRunAtOnce : (room []).faultKind = .none ∧ (room []).pending = .none ∧
    (room []).prog.length < 4294967296 ∧ ∃ t, exec .halt (room []) = .next t := ⟨rfl, rfl, by decide, _, rfl⟩

theorem witness_LoadPushesTheWordAtTheAddress : OsFull (tight [] []) ∧ ¬ OsFull (room []) ∧
    Memory.entry [(4294967295, 7)] (0xFFFFFFFF : Word).toNat = some 7 ∧
    Memory.entry [(4294967295, 7)] (0 : Word).toNat = none := by decide

theorem witness_StoreMakesTheAddressPresent : OneOperandStates ∧ (0 : Word) ≠ 0xFFFFFFFF := by decide

/-- The first and the last address of the block of `Alloc(2)`, and the two beside it. -/
theorem witness_AllocZeroesTheBlockFromAddressZero :
    (0 ≤ (0 : Word).toInt ∧ (0 : Word).toInt < (2 : Word).toInt) ∧
    (0 ≤ (1 : Word).toInt ∧ (1 : Word).toInt < (2 : Word).toInt) ∧
    ¬ (2 : Word).toInt < (2 : Word).toInt ∧ ¬ 0 ≤ (w (-1)).toInt := by decide

theorem witness_FreeMakesTheAddressAbsent : (0 : Word) ≠ 5 ∧ (room []).mem.entry (5 : Word).toNat = none := by decide

theorem witness_LoadAfterStoreAndAfterFree : (room [7]).os = [] ++ [w 7] ∧
    (room [7]).cfg.stackDepth ≠ .finite ([] : List Word).length ∧ ¬ OsFull (room [7]) ∧
    (room []).os = [] ∧ ¬ OsFull (room []) := by decide

theorem witness_AllocBlockIsTheWritesInTurn : Memory.wf [(1, 7), (3, 9)] := by decide

theorem witness_CanonicalMemoriesAreEqualData : Memory.wf [(1, 7)] ∧ Memory.wf (Memory.write [] 1 7) ∧
    ∀ a : Word, Memory.entry [(1, 7)] a.toNat = Memory.entry (Memory.write [] 1 7) a.toNat :=
  ⟨by decide, by decide, fun _ => rfl⟩

theorem witness_PrintAndWriteEmitOneEvent : (room [9, 5]).os = [w 9] ++ [w 5] ∧ (room []).os = [] := by decide

theorem witness_ReadAndScanRaiseARequest : OsFull (tight [1] []) ∧ ¬ OsFull (room [1]) ∧
    (room [1]).faultKind = .none ∧ Pending.line ≠ .none ∧ Pending.numeric ≠ .none := by decide

theorem witness_DeliverAnswersThePendingRequest : ({ room [] with pending := .numeric } : State).pending = .numeric ∧
    ({ room [] with pending := .line } : State).pending = .line ∧ (room []).pending = .none := by decide

/-- `Read` in the last place, and before another word. -/
theorem witness_ReadWaitsUntilTheHostDelivers :
    ({ room [] with prog := [0x6100000000#40] } : State).status = .ready ∧
    ({ room [] with prog := [0x6100000000#40] } : State).fetch = some 0x6100000000#40 ∧
    ¬ OsFull { room [] with prog := [0x6100000000#40] } ∧
    ({ room [] with prog := [0x6100000000#40, 0] } : State).status = .ready := by decide

theorem witness_FaultsArePrecise : (room []).faultKind = .none ∧
    ∃ t, exec .pop (room []) = .next t ∧ t.faultKind ≠ .none := ⟨rfl, _, rfl, by decide⟩

theorem witness_EachInstructionRaisesExactlyItsFaults : FaultKind.stackOverflow ∈ faultsOf (.retV 0) ∧
    (room []).faultKind = .none ∧ ∃ t, exec .pop (room []) = .next t ∧ t.faultKind ≠ .none :=
  ⟨by decide, rfl, _, rfl, by decide⟩

theorem witness_FaultedIsTerminalUntilReset :
    ({ room [] with faultKind := .arithmeticError } : State).faultKind ≠ .none ∧
    ({ room [] with faultKind := .arithmeticError } : State).pending = .none := by decide

theorem witness_StackEffectsAreThoseOfTheTable :
    (room []).os.length < (stackEffect 0 .dup).need ∧ (stackEffect 1 .dup).need ≤ (room [1]).os.length ∧
    (stackEffect 1 .dup).room = true ∧ OsFull (tight [1] [2]) ∧ (tight [1] [2]).cs ≠ [] ∧
    (stackEffect 1 (.retV 5)).room = true ∧ (stackEffect 2 .add).room = false ∧ (room [1]).faultKind = .none ∧
    (∃ t, exec .dup (room [1]) = .next t ∧ t.faultKind = .none) ∧ ∃ t, exec .add (room [1, 2]) = .next t :=
  ⟨by decide, by decide, by decide, by decide, by decide, by decide, by decide, rfl, ⟨_, rfl, rfl⟩, _, rfl⟩

theorem witness_EachElementHasItsOnlyWriters :
    (∃ t, exec (.call 7) (labelled []) = .next t ∧ t.cs ≠ (labelled []).cs) ∧
    (∃ t, exec (.store 7) (room [1]) = .next t ∧ t.mem ≠ (room [1]).mem) ∧
    (∃ t, exec .scan (room []) = .next t ∧ t.pending ≠ (room []).pending) ∧
    (∃ t, exec (.trace true) (room []) = .next t ∧ t.trace ≠ (room []).trace) ∧
    (∃ t, exec .print (room []) = .next t ∧ t.out ≠ (room []).out) ∧
    ∃ t, exec .ret { room [1] with cs := [1] } = .next t ∧ t.cs = [] :=
  ⟨⟨_, rfl, by decide⟩, ⟨_, rfl, by decide⟩, ⟨_, rfl, by decide⟩, ⟨_, rfl, by decide⟩, ⟨_, rfl, by decide⟩, _, rfl, rfl⟩

theorem witness_RunKeepsTheProgramAndExtendsTheOutput :
    ∃ t, runFor 2 { room [] with prog := [0x6000000000#40] } = .next t ∧ t.out = [.printEmpty] := ⟨_, rfl, rfl⟩

theorem witness_TracingNeverChangesARun : (2 : Word).extractLsb' 1 31 ≠ 0 ∧
    ∃ t, runFor 2 { room [] with prog := [0x8100000001#40, 0x6000000000#40] } = .next t ∧ t.trace = true :=
  ⟨by decide, _, rfl, rfl⟩

theorem witness_LoadResetsAndInstallsTheProgram :
    State.reset.cfg.maxProgLen.val ≠ 0 ∧ [0x4600000001#40].length ≤ State.reset.cfg.maxProgLen.val ∧
    (⟨.inf, .inf, 0⟩ : Config).maxProgLen.val < [0x4600000001#40].length ∧
    (resolveLabels [0x4600000001#40]).2 = none ∧
    (resolveLabels [0x4600000001#40, 0x4600000001#40]).2 = some 1 := by decide

theorem witness_LabelTableHoldsEachMarkersOwnIndex :
    (resolveLabels [0x4600000002#40, 0x4600000001#40, 0x4600000001#40]).2 = some 2 ∧
    LabelTable.find (resolveLabels [0x4600000002#40, 0x4600000001#40, 0x4600000001#40]).1 1 = some 1 ∧
    [0x4600000001#40, 0x4600000002#40].length < 4294967296 ∧
    (resolveLabels [0x4600000001#40, 0x4600000002#40]).2 = none ∧
    LabelTable.find (resolveLabels [0x4600000001#40, 0x4600000002#40]).1 2 = some 1 := by decide

/-- Three markers `Label(1)`: the duplicate is the second, though the third repeats too. -/
theorem witness_DuplicateLabelIsTheFirstRepeatedMarker :
    (resolveLabels [0x4600000001#40, 0x1100000000#40, 0x4600000001#40, 0x4600000001#40]).2 = some 2 ∧
    ∃ t, command (.load [0x4600000001#40, 0x1100000000#40, 0x4600000001#40, 0x4600000001#40]) State.reset = .next t :=
  ⟨by decide, _, rfl⟩

theorem witness_LoadFaultsExactlyOnDuplicateMarkers :
    (∃ t, command (.load [0x4600000001#40, 0x4600000001#40]) State.reset = .next t ∧ t.status = .faulted) ∧
    ∃ t, command (.load [0x4600000001#40, 0x4600000002#40]) State.reset = .next t ∧ t.status = .ready :=
  ⟨⟨_, rfl, by decide⟩, _, rfl, by decide⟩

/-- A state in the middle of a run: both stacks, the memory and the Label Table in use, a `Ret` next. -/
def midRun : State :=
  { tight [9, 5] [2] with prog := [0x4600000007#40, 0x4400000000#40], pc := 1, labels := [(7, 0)], mem := [(5, 99)] }

theorem midRun_inv : midRun.Inv where
  pc_le := by decide
  prog_le := by decide
  os_fits := by show 2 ≤ 2; decide
  cs_fits := by show 1 ≤ 1; decide
  cs_range := List.forall_mem_singleton.mpr (by decide)
  labels_eq := by decide
  fault_or_pending := by decide
  numeric_room := fun h => nomatch h
  mem_wf := by decide

theorem witness_StepKeepsTheInvariant : midRun.Inv ∧ ∃ t, step midRun = .next t ∧ t.pc = 2 := ⟨midRun_inv, _, rfl, rfl⟩

theorem witness_EveryCommandKeepsTheStateInvariants : midRun.Inv ∧ midRun.lookup 7 = some 0 ∧
    (∃ t, command .reset midRun = .next t) ∧ (∃ t, command (.load [0]) midRun = .next t) ∧
    (∃ t, command .step midRun = .next t) ∧ (∃ t, command (.deliver 3) midRun = .next t) ∧
    ∃ t, runFor 1 midRun = .next t :=
  ⟨midRun_inv, by decide, ⟨_, rfl⟩, ⟨_, rfl⟩, ⟨_, rfl⟩, ⟨_, rfl⟩, _, rfl⟩

theorem witness_EveryInstructionAndEveryStepCompletes : midRun.Inv ∧ ∃ t, exec .ret midRun = .next t :=
  ⟨midRun_inv, _, rfl⟩

theorem witness_RunReturnsExactlyWhenTheStatusLeavesReady :
    RunReturns (room []) { room [] with pc := 1 } ∧
    ∃ t, command (.load [encode (.label 1), encode (.jump 1)]) State.reset = .next t ∧ t.status = .ready :=
  ⟨.next _ _ _ (by decide) rfl (.stop _ (by decide)), _, rfl, by decide⟩

end Sys2Proof.Machine.Tests
end

section
/-! PROOFS. The commands STEP, DELIVER, LOAD and RUN and the status (10_state.md R36, R41 to R43). -/

namespace Sys2Proof.Machine

/-! ### The status -/

theorem State.status_faulted_iff (s : State) : s.status = .faulted ↔ s.faultKind ≠ .none := by
  unfold State.status
  split_ifs <;> simp_all

theorem State.status_awaitingInput_iff (s : State) :
    s.status = .awaitingInput ↔ s.faultKind = .none ∧ s.pending ≠ .none := by
  unfold State.status
  split_ifs <;> simp_all

theorem State.status_halted_iff (s : State) :
    s.status = .halted ↔ s.faultKind = .none ∧ s.pending = .none ∧ s.pc.toNat = s.prog.length := by
  unfold State.status
  split_ifs <;> simp_all

/-! ### STEP -/

theorem step_of_not_ready {s : State} (h : s.status ≠ .ready) : step s = .next s := by
  rcases step_cases s with ⟨_, hs⟩ | ⟨hready, _⟩
  · exact hs
  · exact absurd hready h

theorem step_of_decode_ok {s : State} {w : InstrWord} {i : Instr} (h : s.status = .ready)
    (hf : s.fetch = some w) (hd : decode w = .ok i) : step s = exec i s := by
  simp [step, h, hf, hd]

theorem step_of_decode_error {s : State} {w : InstrWord} {e : DecodeError} (h : s.status = .ready)
    (hf : s.fetch = some w) (hd : decode w = .error e) : step s = fail s .illegalInstruction := by
  simp [step, h, hf, hd]

/-! ### DELIVER -/

theorem deliverCommand_of_numeric {s : State} (h : s.pending = .numeric) (v : Word) :
    deliverCommand v s = { s with os := s.os ++ [v], pending := .none } := by
  simp [deliverCommand, h, State.push, State.request]

theorem deliverCommand_of_line {s : State} (h : s.pending = .line) (v : Word) :
    deliverCommand v s = { s with pending := .none } := by
  simp [deliverCommand, h, State.request]

theorem deliverCommand_of_none {s : State} (h : s.pending = .none) (v : Word) : deliverCommand v s = s := by
  simp [deliverCommand, h]

/-- DELIVER writes the operand stack and the request and nothing else, whatever is pending. -/
theorem deliverCommand_frame (v : Word) (s : State) :
    ∃ os, deliverCommand v s = { s with os := os, pending := .none } := by
  cases h : s.pending with
  | none => exact ⟨s.os, by rw [deliverCommand_of_none h, ← h]⟩
  | numeric => exact ⟨_, deliverCommand_of_numeric h v⟩
  | line => exact ⟨_, deliverCommand_of_line h v⟩

/-- DELIVER leaves no request and does not move PC, so at `PC = L` the engine is then Halted (10_state.md R37, R43). -/
theorem deliverCommand_status_halted {s : State} (hf : s.faultKind = .none) (hpc : s.pc.toNat = s.prog.length)
    (v : Word) : (deliverCommand v s).status = .halted := by
  obtain ⟨os, hd⟩ := deliverCommand_frame v s
  rw [hd]
  exact (State.status_halted_iff _).mpr ⟨hf, rfl, hpc⟩

/-! ### LOAD -/

theorem command_load_eq_next_iff {program : List InstrWord} {s t : State} :
    command (.load program) s = .next t ↔ program.length ≤ s.cfg.maxProgLen.val ∧ t = loaded program s := by
  simp only [command, loadCommand]
  split_ifs with h <;> simp [h, eq_comm]

/-- A program without a repeated marker is loaded without a fault. -/
theorem loaded_of_no_duplicate {program : List InstrWord} (h : (resolveLabels program).2 = none) (s : State) :
    loaded program s =
      { State.resetOf s.cfg with prog := program, labels := (resolveLabels program).1 } := by
  simp [loaded, h, resetCommand]

/-! ### RUN -/

/-- A bounded RUN of at least one STEP stops at once outside Ready, and in Ready goes on from where the STEP leads. -/
theorem runFor_succ_eq_next_iff {n : Nat} {s t : State} :
    runFor (n + 1) s = .next t ↔
      (s.status ≠ .ready ∧ t = s) ∨
      (s.status = .ready ∧ ∃ u, step s = .next u ∧ runFor n u = .next t) := by
  by_cases h : s.status = .ready
  · cases hs : step s <;> simp [runFor, h, hs]
  · simp [runFor_of_not_ready h, h, eq_comm]

/-- A RUN that returns does so outside Ready, after some number of STEPs. -/
theorem RunReturns.exists_runFor {s t : State} (h : RunReturns s t) :
    t.status ≠ .ready ∧ ∃ n, runFor n s = .next t := by
  induction h with
  | stop s hs => exact ⟨hs, 0, runFor_zero s⟩
  | next s t u hready hs _ ih =>
    obtain ⟨hu, n, hn⟩ := ih
    exact ⟨hu, n + 1, by rw [runFor_succ_of_step hready hs, hn]⟩

theorem runReturns_of_runFor {n : Nat} {s t : State} (ht : t.status ≠ .ready) (h : runFor n s = .next t) :
    RunReturns s t := by
  induction n generalizing s with
  | zero =>
    obtain rfl : s = t := Host.Outcome.next.inj h
    exact .stop s ht
  | succ n ih =>
    rcases runFor_succ_eq_next_iff.mp h with ⟨hs, rfl⟩ | ⟨hready, u, hu, hn⟩
    · exact .stop t hs
    · exact .next s u t hready hu (ih hn)

/-- RUN returns in at most one state, since STEP is a function. -/
theorem RunReturns.unique {s t u : State} (ht : RunReturns s t) (hu : RunReturns s u) : t = u := by
  induction ht with
  | stop s hs =>
    cases hu with
    | stop => rfl
    | next _ _ _ hready => exact absurd hready hs
  | next s s' t hready hstep _ ih =>
    cases hu with
    | stop _ hs => exact absurd hready hs
    | next _ s'' _ _ hstep' hr =>
      obtain rfl : s' = s'' := Host.Outcome.next.inj (hstep.symm.trans hstep')
      exact ih hr

/-- RUN does not return from a set of Ready states that STEP does not leave. -/
theorem not_runReturns_of_invariant {P : State → Prop} (hready : ∀ s, P s → s.status = .ready)
    (hstep : ∀ s t, P s → step s = .next t → P t) {s t : State} (hs : P s) : ¬ RunReturns s t := by
  intro h
  induction h with
  | stop s hstop => exact hstop (hready s hs)
  | next s u t _ hu _ ih => exact ih (hstep s u hs hu)

/-! ### The program `Label(1), Jump(1)`, on which RUN does not return (43_control.md R136) -/

theorem decode_encode_label (id : Word) : decode (encode (.label id)) = .ok (.label id) := by
  simp [encode, decodeFields]

theorem decode_encode_jump (id : Word) : decode (encode (.jump id)) = .ok (.jump id) := by
  simp [encode, decodeFields]

/-- The infinite loop: a marker and a jump back to it. -/
def loopProgram : List InstrWord := [encode (.label 1), encode (.jump 1)]

theorem resolveLabels_loopProgram : resolveLabels loopProgram = ([(1, 0)], none) := by decide

/-- The states of the loop: nothing stops the engine, and PC is at one of the two instructions. -/
structure InLoop (s : State) : Prop where
  prog_eq : s.prog = loopProgram
  labels_eq : s.labels = [(1, 0)]
  no_fault : s.faultKind = .none
  no_request : s.pending = .none
  pc_eq : s.pc = 0 ∨ s.pc = 1

theorem InLoop.status_ready {s : State} (h : InLoop s) : s.status = .ready := by
  refine (State.status_ready_iff s).mpr ⟨h.no_fault, h.no_request, ?_⟩
  rcases h.pc_eq with hpc | hpc <;> simp [hpc, h.prog_eq, loopProgram]

theorem InLoop.goto {s : State} (h : InLoop s) {a : Index} (ha : a = 0 ∨ a = 1) : InLoop (s.goto a) :=
  ⟨h.prog_eq, h.labels_eq, h.no_fault, h.no_request, ha⟩

/-- At the marker STEP advances to the jump. -/
theorem InLoop.step_at_label {s : State} (h : InLoop s) (hpc : s.pc = 0) : step s = .next (s.goto 1) := by
  have hf : s.fetch = some (encode (.label 1)) := by simp [State.fetch, h.prog_eq, hpc, loopProgram]
  have hexec : exec (.label 1) s = .next s.advance := rfl
  rw [step_of_decode_ok h.status_ready hf (decode_encode_label 1), hexec, State.advance, State.npc_eq, hpc]
  rfl

/-- At the jump STEP goes back to the marker. -/
theorem InLoop.step_at_jump {s : State} (h : InLoop s) (hpc : s.pc = 1) : step s = .next (s.goto 0) := by
  have hf : s.fetch = some (encode (.jump 1)) := by simp [State.fetch, h.prog_eq, hpc, loopProgram]
  have hexec : exec (.jump 1) s = execJump 1 s := rfl
  have hlookup : s.lookup 1 = some 0 := by simp [State.lookup_eq, h.labels_eq, LabelTable.find]
  rw [step_of_decode_ok h.status_ready hf (decode_encode_jump 1), hexec, execJump, hlookup]

theorem InLoop.step_keeps {s t : State} (h : InLoop s) (hs : step s = .next t) : InLoop t := by
  rcases h.pc_eq with hpc | hpc
  · obtain rfl : s.goto 1 = t := Host.Outcome.next.inj ((h.step_at_label hpc).symm.trans hs)
    exact h.goto (.inr rfl)
  · obtain rfl : s.goto 0 = t := Host.Outcome.next.inj ((h.step_at_jump hpc).symm.trans hs)
    exact h.goto (.inl rfl)

theorem inLoop_of_load {s t : State} (h : command (.load loopProgram) s = .next t) : InLoop t := by
  obtain ⟨_, rfl⟩ := command_load_eq_next_iff.mp h
  rw [loaded_of_no_duplicate (by rw [resolveLabels_loopProgram]), resolveLabels_loopProgram]
  exact ⟨rfl, rfl, rfl, rfl, .inl rfl⟩

/-! ### The obligations -/

/-- Settles O60: the two readings of RUN agree by induction on the run and on the number of STEPs; RUN does not return
from the loop because its states are Ready and STEP keeps to them. -/
theorem runReturnsExactlyWhenTheStatusLeavesReady : Obligations.RunReturnsExactlyWhenTheStatusLeavesReady := by
  refine ⟨fun s t => ⟨RunReturns.exists_runFor, ?_⟩, fun _ _ _ => RunReturns.unique, fun s t u hload => ?_⟩
  · rintro ⟨ht, n, hn⟩
    exact runReturns_of_runFor ht hn
  · exact not_runReturns_of_invariant (fun _ => InLoop.status_ready) (fun _ _ => InLoop.step_keeps)
      (inLoop_of_load hload)

/-- Settles O8: one case per status and, in Ready, one per answer of the decoder. -/
theorem stepExecutesOneInstructionOrNothing : Obligations.StepExecutesOneInstructionOrNothing := by
  refine fun s => ⟨fun h => step_of_not_ready ?_, fun w hready hf => ⟨?_, ?_⟩⟩
  · rcases h with h | h | h <;> simp [h]
  · exact fun i hd => step_of_decode_ok hready hf hd
  · exact fun e hd => step_of_decode_error hready hf hd

/-- Settles O9: the four statuses by their characterisations, the delivery at `PC = L`, and the codes by evaluation. -/
theorem statusFollowsItsPriority : Obligations.StatusFollowsItsPriority := by
  refine ⟨fun s => ⟨s.status_faulted_iff, s.status_awaitingInput_iff, s.status_halted_iff, s.status_ready_iff, ?_⟩,
    by decide⟩
  intro v hwait hpc
  obtain ⟨hfault, _⟩ := s.status_awaitingInput_iff.mp hwait
  exact deliverCommand_status_halted hfault hpc v

/-- Settles O43: DELIVER by the kind of the pending request. -/
theorem deliverAnswersThePendingRequest : Obligations.DeliverAnswersThePendingRequest := by
  refine fun s v => ⟨fun h => ?_, fun h => ?_, fun h => ?_⟩
  · rw [← deliverCommand_of_numeric h v, command]
  · rw [← deliverCommand_of_line h v, command]
  · rw [command, deliverCommand_of_none h v]

end Sys2Proof.Machine
end

section
/-! PROOFS. The words that do not decode (30_encoding.md R79). -/

namespace Sys2Proof

/-! ### The formats of the opcode map

What the decoder does with an operand field depends on the opcode's format alone. Each opcode falls in one of four
classes: unassigned, format N, a format whose operand field is free, and the format F of `Trace`. -/

/-- The opcodes that are no row of the opcode map (30_encoding.md R79 (a)). -/
def UnassignedOpcode (n : Nat) : Prop :=
  n ≤ 0x0F ∨ (0x16 ≤ n ∧ n ≤ 0x1F) ∨ (0x28 ≤ n ∧ n ≤ 0x2F) ∨ (0x36 ≤ n ∧ n ≤ 0x3F) ∨ (0x48 ≤ n ∧ n ≤ 0x4F) ∨
    (0x54 ≤ n ∧ n ≤ 0x5F) ∨ (0x64 ≤ n ∧ n ≤ 0x6F) ∨ (0x77 ≤ n ∧ n ≤ 0x7F) ∨ 0x82 ≤ n

/-- The opcodes of format N, whose operand field must be 0 (30_encoding.md R79 (b)). -/
def FormatNOpcode (n : Nat) : Prop :=
  (0x11 ≤ n ∧ n ≤ 0x15) ∨ (0x20 ≤ n ∧ n ≤ 0x27) ∨ (0x30 ≤ n ∧ n ≤ 0x35) ∨ n = 0x44 ∨ n = 0x47 ∨ n = 0x60 ∨
    n = 0x61 ∨ n = 0x63 ∨ (0x70 ≤ n ∧ n ≤ 0x76) ∨ n = 0x80

/-- The opcodes of the formats K, A, L and M, whose operand field is free (30_encoding.md R72). -/
def PayloadOpcode (n : Nat) : Prop :=
  n = 0x10 ∨ (0x40 ≤ n ∧ n ≤ 0x43) ∨ n = 0x45 ∨ n = 0x46 ∨ (0x50 ≤ n ∧ n ≤ 0x53) ∨ n = 0x62

theorem opcode_format_cases (n : Nat) :
    UnassignedOpcode n ∨ FormatNOpcode n ∨ PayloadOpcode n ∨ n = 0x81 := by
  unfold UnassignedOpcode FormatNOpcode PayloadOpcode
  omega

theorem FormatNOpcode.not_other {n : Nat} (h : FormatNOpcode n) : ¬ UnassignedOpcode n ∧ n ≠ 0x81 := by
  unfold FormatNOpcode at h
  unfold UnassignedOpcode
  omega

theorem PayloadOpcode.not_other {n : Nat} (h : PayloadOpcode n) :
    ¬ UnassignedOpcode n ∧ ¬ FormatNOpcode n ∧ n ≠ 0x81 := by
  unfold PayloadOpcode at h
  unfold UnassignedOpcode FormatNOpcode
  omega

theorem not_unassigned_not_formatN_trace : ¬ UnassignedOpcode 0x81 ∧ ¬ FormatNOpcode 0x81 := by
  unfold UnassignedOpcode FormatNOpcode
  omega

/-! ### The decoder on each format -/

theorem decodeFields_of_unassigned {op : Opcode} (h : UnassignedOpcode op.toNat) (x : Word) :
    decodeFields op x = .error (.unassignedOpcode op) := by
  unfold decodeFields
  split
  case h_46 => rfl
  all_goals
    next hop => simp [hop, UnassignedOpcode] at h

theorem decodeFields_of_formatN {op : Opcode} (h : FormatNOpcode op.toNat) (x : Word) :
    ∃ i, decodeFields op x = noOperand x i := by
  unfold decodeFields
  generalize op.toNat = n at h
  rcases h with ⟨hlo, hhi⟩ | ⟨hlo, hhi⟩ | ⟨hlo, hhi⟩ | rfl | rfl | rfl | rfl | rfl | ⟨hlo, hhi⟩ | rfl
  · interval_cases n <;> exact ⟨_, rfl⟩
  · interval_cases n <;> exact ⟨_, rfl⟩
  · interval_cases n <;> exact ⟨_, rfl⟩
  · exact ⟨.ret, rfl⟩
  · exact ⟨.halt, rfl⟩
  · exact ⟨.print, rfl⟩
  · exact ⟨.read, rfl⟩
  · exact ⟨.scan, rfl⟩
  · interval_cases n <;> exact ⟨_, rfl⟩
  · exact ⟨.dump, rfl⟩

theorem decodeFields_of_payload {op : Opcode} (h : PayloadOpcode op.toNat) (x : Word) :
    ∃ i, decodeFields op x = .ok i := by
  unfold decodeFields
  generalize op.toNat = n at h
  rcases h with rfl | ⟨hlo, hhi⟩ | rfl | rfl | ⟨hlo, hhi⟩ | rfl
  · exact ⟨.push x, rfl⟩
  · interval_cases n <;> exact ⟨_, rfl⟩
  · exact ⟨.retV x, rfl⟩
  · exact ⟨.label x, rfl⟩
  · interval_cases n <;> exact ⟨_, rfl⟩
  · exact ⟨.write x, rfl⟩

theorem decodeFields_of_trace {op : Opcode} (h : op.toNat = 0x81) (x : Word) :
    decodeFields op x =
      if x.extractLsb' 1 31 = 0 then .ok (.trace (x.getLsbD 0)) else .error (.flagBitsNotZero x) := by
  simp [decodeFields, h]

theorem exists_noOperand_eq_error_iff (x : Word) (i : Instr) : (∃ e, noOperand x i = .error e) ↔ x ≠ 0 := by
  unfold noOperand
  split_ifs with hx
  · simp [hx]
  · exact ⟨fun _ => hx, fun _ => ⟨_, rfl⟩⟩

/-- The three cases of 30_encoding.md R79, one for each class of opcodes that restricts the word. -/
theorem exists_decodeFields_eq_error_iff (op : Opcode) (x : Word) :
    (∃ e, decodeFields op x = .error e) ↔
      UnassignedOpcode op.toNat ∨ (FormatNOpcode op.toNat ∧ x ≠ 0) ∨
        (op.toNat = 0x81 ∧ x.extractLsb' 1 31 ≠ 0) := by
  rcases opcode_format_cases op.toNat with h | h | h | h
  · simp [decodeFields_of_unassigned h, h]
  · obtain ⟨i, hi⟩ := decodeFields_of_formatN h x
    rw [hi, exists_noOperand_eq_error_iff]
    simp [h, h.not_other]
  · obtain ⟨i, hi⟩ := decodeFields_of_payload h x
    simp [hi, h.not_other]
  · rw [decodeFields_of_trace h, h]
    split_ifs with hx
    · simp [hx, not_unassigned_not_formatN_trace]
    · exact ⟨fun _ => .inr (.inr ⟨rfl, hx⟩), fun _ => ⟨_, rfl⟩⟩

end Sys2Proof

namespace Sys2Proof.Machine

/-- Settles O3: the illegal words by the format of the opcode, the two extreme words by evaluation, and the fault by
what STEP does with a word that does not decode. -/
theorem illegalWordsAreTheListedOnes : Obligations.IllegalWordsAreTheListedOnes :=
  ⟨fun w => exists_decodeFields_eq_error_iff (opcodeOf w) (operandOf w), ⟨_, rfl⟩, ⟨_, rfl⟩,
    fun _ _ _ hready hfetch hdecode => step_of_decode_error hready hfetch hdecode⟩

end Sys2Proof.Machine
end

section
/-! PROOFS. The stack manipulation instructions (40_stack.md): for each, the fault it raises and, on a stack written as
its rule writes it, the stack it leaves. -/

namespace Sys2Proof.Machine

variable {s : State} {below : List Word} {a b c : Word}

theorem State.advance_eq (s : State) : s.advance = { s with pc := s.pc + 1 } := rfl

theorem State.drop_depth (s : State) : s.drop s.depth = { s with os := [] } := by
  simp [State.drop, State.depth]

/-! ### `Push` (40_stack.md R101) -/

theorem exec_push (k : Word) (s : State) : exec (.push k) s = pushing k s := rfl

theorem exec_push_of_full (h : OsFull s) (k : Word) : exec (.push k) s = fail s .stackOverflow := by
  rw [exec_push]
  rcases pushing_cases k s with ⟨_, hfail⟩ | ⟨hroom, _⟩
  · exact hfail
  · exact absurd h hroom

theorem exec_push_of_room (h : ¬ OsFull s) (k : Word) :
    exec (.push k) s = .next { s with os := s.os ++ [k], pc := s.pc + 1 } := by
  rw [exec_push]
  rcases pushing_cases k s with ⟨hfull, _⟩ | ⟨_, hnext⟩
  · exact absurd hfull h
  · exact hnext

/-! ### `Pop` and `Clear` (40_stack.md R102, R106) -/

theorem exec_pop (s : State) :
    exec .pop s = if s.depth < 1 then fail s .stackUnderflow else .next (s.drop 1).advance := rfl

theorem exec_pop_of_underflow (h : s.os.length < 1) : exec .pop s = fail s .stackUnderflow := by
  simp [exec_pop, State.depth_eq, h]

theorem exec_pop_of_one (h : s.os = below ++ [a]) :
    exec .pop s = .next { s with os := below, pc := s.pc + 1 } := by
  have hdepth : ¬ s.depth < 1 := by simp [State.depth_of_one h]
  rw [exec_pop, if_neg hdepth, State.drop_of_one h, State.advance_eq]

theorem exec_clear (s : State) : exec .clear s = .next { s with os := [], pc := s.pc + 1 } := by
  have hexec : exec .clear s = .next (s.drop s.depth).advance := rfl
  rw [hexec, State.drop_depth, State.advance_eq]

/-! ### `Dup` (40_stack.md R103): the underflow is tested before the overflow -/

theorem exec_dup (s : State) :
    exec .dup s = if s.depth < 1 then fail s .stackUnderflow
      else if s.stackFull then fail s .stackOverflow
      else .next (s.push (s.peek 0)).advance := rfl

theorem exec_dup_of_underflow (h : s.os.length < 1) : exec .dup s = fail s .stackUnderflow := by
  simp [exec_dup, State.depth_eq, h]

theorem exec_dup_of_full (h : s.os = below ++ [a]) (hfull : OsFull s) : exec .dup s = fail s .stackOverflow := by
  have hdepth : ¬ s.depth < 1 := by simp [State.depth_of_one h]
  rw [exec_dup, if_neg hdepth, if_pos (State.stackFull_iff.mpr hfull)]

theorem exec_dup_of_one (h : s.os = below ++ [a]) (hroom : ¬ OsFull s) :
    exec .dup s = .next { s with os := below ++ [a, a], pc := s.pc + 1 } := by
  have hdepth : ¬ s.depth < 1 := by simp [State.depth_of_one h]
  rw [exec_dup, if_neg hdepth, if_neg (hroom ∘ State.stackFull_iff.mp), State.peek_of_one h, State.advance_eq]
  simp [State.push, h]

/-! ### `Swap` and `Rot` (40_stack.md R104, R105) -/

theorem exec_swap (s : State) :
    exec .swap s = if s.depth < 2 then fail s .stackUnderflow
      else .next (((s.drop 2).push (s.peek 0)).push (s.peek 1)).advance := rfl

theorem exec_swap_of_underflow (h : s.os.length < 2) : exec .swap s = fail s .stackUnderflow := by
  simp [exec_swap, State.depth_eq, h]

theorem exec_swap_of_two (h : s.os = below ++ [a, b]) :
    exec .swap s = .next { s with os := below ++ [b, a], pc := s.pc + 1 } := by
  have hdepth : ¬ s.depth < 2 := by simp [State.depth_of_two h]
  obtain ⟨hlower, htop⟩ := State.peek_of_two h
  rw [exec_swap, if_neg hdepth, State.drop_of_two h, hlower, htop, State.advance_eq]
  simp [State.push]

theorem exec_rot (s : State) :
    exec .rot s = if s.depth < 3 then fail s .stackUnderflow
      else .next ((((s.drop 3).push (s.peek 1)).push (s.peek 0)).push (s.peek 2)).advance := rfl

theorem exec_rot_of_underflow (h : s.os.length < 3) : exec .rot s = fail s .stackUnderflow := by
  simp [exec_rot, State.depth_eq, h]

theorem exec_rot_of_three (h : s.os = below ++ [a, b, c]) :
    exec .rot s = .next { s with os := below ++ [b, c, a], pc := s.pc + 1 } := by
  have hdepth : ¬ s.depth < 3 := by simp [State.depth_of_three h]
  obtain ⟨hthird, hsecond, htop⟩ := State.peek_of_three h
  rw [exec_rot, if_neg hdepth, State.drop_of_three h, hthird, hsecond, htop, State.advance_eq]
  simp [State.push]

/-! ### The obligations -/

/-- Settles O12: the two answers of the pushing form. -/
theorem pushAppendsItsConstant : Obligations.PushAppendsItsConstant :=
  fun k => ⟨rfl, fun _ => ⟨fun hfull => exec_push_of_full hfull k, fun hroom => exec_push_of_room hroom k⟩⟩

/-- Settles O13: `Pop` on the empty stack and on a stack with a top, `Clear` on any stack. -/
theorem popAndClearRemoveElements : Obligations.PopAndClearRemoveElements :=
  ⟨rfl, rfl, fun s => ⟨exec_pop_of_underflow, fun _ _ => exec_pop_of_one, exec_clear s⟩⟩

/-- Settles O14: the empty stack first, then the full one, then one with room. -/
theorem dupCopiesTheTop : Obligations.DupCopiesTheTop :=
  ⟨rfl, fun _ => ⟨exec_dup_of_underflow, fun _ _ h => ⟨exec_dup_of_full h, exec_dup_of_one h⟩⟩⟩

/-- Settles O15: each of the two on a stack that is too short and on one written as its rule writes it. -/
theorem swapAndRotPermuteTheTop : Obligations.SwapAndRotPermuteTheTop :=
  ⟨rfl, rfl, fun _ => ⟨exec_swap_of_underflow, fun _ _ _ => exec_swap_of_two, exec_rot_of_underflow,
    fun _ _ _ _ => exec_rot_of_three⟩⟩

end Sys2Proof.Machine
end

section
/-! PROOFS. The operand forms of the ALU on a stack written as the rules write it, the shapes of a rule that they give
(30_encoding.md R81), and the arithmetic instructions (41_arithmetic.md). -/

namespace Sys2Proof.Machine

variable {s : State} {below : List Word} {lhs rhs a : Word} {i : Instr} {w : InstrWord}

/-! ### The operand forms: the fault, and the result on a stack that is deep enough -/

theorem binary_of_underflow (f : Word → Word → Word) (h : s.os.length < 2) : binary f s = fail s .stackUnderflow := by
  simp [binary, State.depth_eq, h]

theorem binary_of_two (f : Word → Word → Word) (h : s.os = below ++ [lhs, rhs]) :
    binary f s = .next { s with os := below ++ [f lhs rhs], pc := s.pc + 1 } := by
  rcases binary_cases f s with ⟨hshort, _⟩ | ⟨_, _, _, hos, hnext⟩
  · simp [h] at hshort
  · obtain ⟨rfl, htop⟩ := List.append_inj' (hos.symm.trans h) rfl
    cases htop
    exact hnext

theorem dividing_of_underflow (f : Word → Word → Word) (h : s.os.length < 2) :
    dividing f s = fail s .stackUnderflow := by
  simp [dividing, State.depth_eq, h]

/-- The divisor alone decides between the two answers of a dividing form that does not underflow. -/
theorem dividing_of_two (f : Word → Word → Word) (h : s.os = below ++ [lhs, rhs]) :
    (rhs.toInt = 0 → dividing f s = fail s .arithmeticError) ∧
    (rhs.toInt ≠ 0 → dividing f s = .next { s with os := below ++ [f lhs rhs], pc := s.pc + 1 }) := by
  rcases dividing_cases f s with ⟨hshort, _⟩ | ⟨_, _, _, hos, hanswer⟩
  · simp [h] at hshort
  · obtain ⟨rfl, htop⟩ := List.append_inj' (hos.symm.trans h) rfl
    cases htop
    rcases hanswer with ⟨hzero, hfail⟩ | ⟨hnonzero, hnext⟩
    · exact ⟨fun _ => hfail, fun hnonzero => absurd hzero hnonzero⟩
    · exact ⟨fun hzero => absurd hzero hnonzero, fun _ => hnext⟩

theorem unary_of_underflow (f : Word → Word) (h : s.os.length < 1) : unary f s = fail s .stackUnderflow := by
  simp [unary, State.depth_eq, h]

theorem unary_of_one (f : Word → Word) (h : s.os = below ++ [a]) :
    unary f s = .next { s with os := below ++ [f a], pc := s.pc + 1 } := by
  rcases unary_cases f s with ⟨hshort, _⟩ | ⟨_, _, hos, hnext⟩
  · simp [h] at hshort
  · obtain ⟨rfl, htop⟩ := List.append_inj' (hos.symm.trans h) rfl
    cases htop
    exact hnext

/-! ### An instruction that runs an operand form obeys the rule of that form -/

theorem binaryRule_of_exec {f : Word → Word → Word} (hword : encode i = w) (hexec : ∀ s, exec i s = binary f s) :
    BinaryRule i w f :=
  ⟨hword, fun s => ⟨fun hshort => (hexec s).trans (binary_of_underflow f hshort),
    fun _ _ _ hos => (hexec s).trans (binary_of_two f hos)⟩⟩

/-- The rule speaks of the function on integers, the operand form of the wrapped function on words. -/
theorem dividingRule_of_exec {f : Int → Int → Int} (hword : encode i = w)
    (hexec : ∀ s, exec i s = dividing (fun lhs rhs => wrap (f lhs.toInt rhs.toInt)) s) : DividingRule i w f := by
  refine ⟨hword, fun s => ⟨fun hshort => (hexec s).trans (dividing_of_underflow _ hshort), fun _ _ _ hos => ?_⟩⟩
  obtain ⟨hzero, hnonzero⟩ := dividing_of_two (fun lhs rhs => wrap (f lhs.toInt rhs.toInt)) hos
  exact ⟨fun h => (hexec s).trans (hzero h), fun h => (hexec s).trans (hnonzero h)⟩

theorem unaryRule_of_exec {f : Word → Word} (hword : encode i = w) (hexec : ∀ s, exec i s = unary f s) :
    UnaryRule i w f :=
  ⟨hword, fun s => ⟨fun hshort => (hexec s).trans (unary_of_underflow f hshort),
    fun _ _ hos => (hexec s).trans (unary_of_one f hos)⟩⟩

/-! ### The arithmetic instructions and their operand forms (41_arithmetic.md R111 to R118) -/

theorem exec_add (s : State) : exec .add s = binary aluAdd s := rfl

theorem exec_sub (s : State) : exec .sub s = binary aluSub s := rfl

theorem exec_mul (s : State) : exec .mul s = binary aluMul s := rfl

theorem exec_div (s : State) : exec .div s = dividing aluDiv s := rfl

theorem exec_rem (s : State) : exec .rem s = dividing aluRem s := rfl

theorem exec_neg (s : State) : exec .neg s = unary aluNeg s := rfl

theorem exec_inc (s : State) : exec .inc s = unary aluInc s := rfl

theorem exec_dec (s : State) : exec .dec s = unary aluDec s := rfl

/-! ### The obligations -/

/-- Settles O17: three binary forms, whose functions are the wrapped sum, difference and product. -/
theorem addSubMulWrap : Obligations.AddSubMulWrap :=
  ⟨binaryRule_of_exec rfl exec_add, binaryRule_of_exec rfl exec_sub, binaryRule_of_exec rfl exec_mul⟩

/-- Settles O18: two dividing forms, whose functions are the wrapped truncated quotient and its remainder. -/
theorem divAndRemTruncateOrRaise : Obligations.DivAndRemTruncateOrRaise :=
  ⟨dividingRule_of_exec rfl exec_div, dividingRule_of_exec rfl exec_rem⟩

/-- Settles O19: three unary forms, whose functions are the wrapped negation, successor and predecessor. -/
theorem negIncDecWrap : Obligations.NegIncDecWrap :=
  ⟨unaryRule_of_exec rfl exec_neg, unaryRule_of_exec rfl exec_inc, unaryRule_of_exec rfl exec_dec⟩

end Sys2Proof.Machine
end

section
/-! PROOFS. The comparisons (42_comparison.md): all six are one function of a relation on the signed values, and a
conditional branch that follows (43_control.md R137, R138) tests that relation. -/

namespace Sys2Proof.Machine

variable {s : State} {below : List Word} {lhs rhs v id : Word} {t : Index} {i : Instr} {w : InstrWord}

/-! ### The comparisons and their relations (42_comparison.md R125 to R131) -/

/-- The word that the comparison by `rel` leaves: whether second and top stand in the relation, signed. -/
def comparison (rel : Int → Int → Prop) [DecidableRel rel] (lhs rhs : Word) : Word :=
  truthWord (decide (rel lhs.toInt rhs.toInt))

theorem comparison_eq_ite (rel : Int → Int → Prop) [DecidableRel rel] (lhs rhs : Word) :
    comparison rel lhs rhs = if rel lhs.toInt rhs.toInt then 1 else 0 := by
  simp only [comparison, truthWord, decide_eq_true_eq]

theorem exec_eq (s : State) : exec .eq s = binary (comparison (· = ·)) s := rfl

theorem exec_ne (s : State) : exec .ne s = binary (comparison (· ≠ ·)) s := rfl

theorem exec_le (s : State) : exec .le s = binary (comparison (· ≤ ·)) s := rfl

theorem exec_ge (s : State) : exec .ge s = binary (comparison (· ≥ ·)) s := rfl

theorem exec_lt (s : State) : exec .lt s = binary (comparison (· < ·)) s := rfl

theorem exec_gt (s : State) : exec .gt s = binary (comparison (· > ·)) s := rfl

theorem binaryRule_of_comparison (rel : Int → Int → Prop) [DecidableRel rel] (hword : encode i = w)
    (hexec : ∀ s, exec i s = binary (comparison rel) s) :
    BinaryRule i w (fun lhs rhs => if rel lhs.toInt rhs.toInt then 1 else 0) := by
  have hfunction : comparison rel = fun lhs rhs => if rel lhs.toInt rhs.toInt then 1 else 0 :=
    funext₂ (comparison_eq_ite rel)
  exact hfunction ▸ binaryRule_of_exec hword hexec

/-! ### The conditional branches on a defined label (43_control.md R137, R138) -/

theorem branch_of_one (fires : Word → Bool) (hos : s.os = below ++ [v]) (hlookup : s.lookup id = some t) :
    branch fires id s = .next { s with os := below, pc := if fires v then t else s.pc + 1 } := by
  rcases branch_cases fires id s with ⟨hshort, _⟩ | ⟨_, _, hos', hanswer⟩
  · simp [hos] at hshort
  · obtain ⟨rfl, htop⟩ := List.append_inj' (hos'.symm.trans hos) rfl
    cases htop
    rcases hanswer with ⟨hnone, _⟩ | ⟨_, hsome, hnext⟩
    · simp [hlookup] at hnone
    · obtain rfl := Option.some.inj (hsome.symm.trans hlookup)
      exact hnext

theorem exec_brt (id : Word) (s : State) : exec (.brt id) s = branch truthOf id s := rfl

theorem exec_brz (id : Word) (s : State) : exec (.brz id) s = branch (fun v => !truthOf v) id s := rfl

/-! ### A branch after a comparison (42_comparison.md R132) -/

/-- The truth sense of the branches undoes the word of a comparison. -/
@[simp] theorem truthOf_truthWord (holds : Bool) : truthOf (truthWord holds) = holds := by
  cases holds <;> rfl

theorem truthOf_comparison (rel : Int → Int → Prop) [DecidableRel rel] (lhs rhs : Word) :
    truthOf (comparison rel lhs rhs) = decide (rel lhs.toInt rhs.toInt) :=
  truthOf_truthWord _

/-- A branch on the word that the instruction before it left: that instruction kept the label table and advanced PC. -/
theorem branch_after_push (fires : Word → Bool) (hlookup : s.lookup id = some t) :
    branch fires id { s with os := below ++ [v], pc := s.pc + 1 } =
      .next { s with os := below, pc := if fires v then t else s.pc + 2 } := by
  have hpc : s.pc + 1 + 1 = s.pc + 2 := BitVec.add_assoc s.pc 1 1
  rw [← hpc]
  exact branch_of_one fires rfl hlookup

theorem branch_after_comparison {rel : Int → Int → Prop} [DecidableRel rel]
    (hexec : ∀ s, exec i s = binary (comparison rel) s) (hos : s.os = below ++ [lhs, rhs])
    (hlookup : s.lookup id = some t) :
    ∃ u, exec i s = .next u ∧
      (rel lhs.toInt rhs.toInt → exec (.brt id) u = .next { s with os := below, pc := t } ∧
        exec (.brz id) u = .next { s with os := below, pc := s.pc + 2 }) ∧
      (¬ rel lhs.toInt rhs.toInt → exec (.brt id) u = .next { s with os := below, pc := s.pc + 2 } ∧
        exec (.brz id) u = .next { s with os := below, pc := t }) := by
  refine ⟨_, (hexec s).trans (binary_of_two _ hos), ?_⟩
  rw [exec_brt, exec_brz, branch_after_push truthOf hlookup, branch_after_push (fun v => !truthOf v) hlookup,
    truthOf_comparison]
  exact ⟨fun hholds => by simp [hholds], fun hfails => by simp [hfails]⟩

/-! ### The obligations -/

/-- Settles O21: six binary forms, each with the comparison by its relation. -/
theorem comparisonsPushOneOrZero : Obligations.ComparisonsPushOneOrZero :=
  ⟨binaryRule_of_comparison (· = ·) rfl exec_eq, binaryRule_of_comparison (· ≠ ·) rfl exec_ne,
    binaryRule_of_comparison (· ≤ ·) rfl exec_le, binaryRule_of_comparison (· ≥ ·) rfl exec_ge,
    binaryRule_of_comparison (· < ·) rfl exec_lt, binaryRule_of_comparison (· > ·) rfl exec_gt⟩

/-- Settles O22: one case per comparison; the branches see only the relation it tests. -/
theorem branchAfterComparisonFollowsTheRelation : Obligations.BranchAfterComparisonFollowsTheRelation := by
  intro i rel hcomparison s below lhs rhs id t hos hlookup
  rcases hcomparison with ⟨rfl, rfl⟩ | ⟨rfl, rfl⟩ | ⟨rfl, rfl⟩ | ⟨rfl, rfl⟩ | ⟨rfl, rfl⟩ | ⟨rfl, rfl⟩
  · exact branch_after_comparison exec_eq hos hlookup
  · exact branch_after_comparison exec_ne hos hlookup
  · exact branch_after_comparison exec_le hos hlookup
  · exact branch_after_comparison exec_ge hos hlookup
  · exact branch_after_comparison exec_lt hos hlookup
  · exact branch_after_comparison exec_gt hos hlookup

end Sys2Proof.Machine
end

section
/-! PROOFS. The control instructions that take a label or a return address (43_control.md R136 to R141): for each, the
faults it raises in the order it tests for them, and the state it leaves when it completes. -/

namespace Sys2Proof.Machine

variable {s : State} {below : List Word} {v id : Word} {outer : List Index} {r t : Index}

/-! ### The call stack, written as the rules write it: the outer return addresses, then the top one -/

theorem State.cdepth_ne_zero_of_top (h : s.cs = outer ++ [r]) : s.cdepth ≠ 0 := by simp [State.cdepth_eq, h]

theorem State.ctop_of_top (h : s.cs = outer ++ [r]) : s.ctop = r := by simp [State.ctop, h]

theorem State.cdrop_of_top (h : s.cs = outer ++ [r]) : s.cdrop = { s with cs := outer } := by simp [State.cdrop, h]

/-! ### `Jump` (43_control.md R136) -/

theorem exec_jump (id : Word) (s : State) : exec (.jump id) s = execJump id s := rfl

theorem exec_jump_of_unknown (h : s.lookup id = none) : exec (.jump id) s = fail s .unknownLabel := by
  rw [exec_jump, execJump, h]

theorem exec_jump_of_label (h : s.lookup id = some t) : exec (.jump id) s = .next { s with pc := t } := by
  simp only [exec_jump, execJump, h, State.goto]

/-! ### `Brt` and `Brz` (43_control.md R137, R138): two branch forms, each with its own test -/

theorem branch_of_underflow (fires : Word → Bool) (id : Word) (h : s.os.length < 1) :
    branch fires id s = fail s .stackUnderflow := by
  simp [branch, State.depth_eq, h]

/-- The label is looked up before the value is tested, so an undefined one is a fault whatever the value. -/
theorem branch_of_unknown (fires : Word → Bool) (hos : s.os = below ++ [v]) (hlookup : s.lookup id = none) :
    branch fires id s = fail s .unknownLabel := by
  have hdepth : ¬ s.depth < 1 := by simp [State.depth_of_one hos]
  rw [branch, if_neg hdepth, hlookup]

theorem truthOf_eq_true_iff (v : Word) : truthOf v = true ↔ v ≠ 0 := bne_iff_ne

theorem not_truthOf_eq_true_iff (v : Word) : (!truthOf v) = true ↔ v = 0 := by
  rw [Bool.not_eq_true', ← Bool.not_eq_true, truthOf_eq_true_iff, not_not]

/-- An instruction that runs the branch form obeys the rule of the branches, for the condition its test decides. -/
theorem branchRule_of_exec {i : Word → Instr} {op : Opcode} {fires : Word → Bool} {condition : Word → Prop}
    (hword : ∀ id, encode (i id) = op ++ id) (hexec : ∀ id s, exec (i id) s = branch fires id s)
    (htest : ∀ v, fires v = true ↔ condition v) : BranchRule i op condition := by
  refine fun id => ⟨hword id, fun s => ⟨fun hshort => ?_, fun below v hos => ⟨fun hunknown => ?_, fun t hlabel => ?_⟩⟩⟩
  · exact (hexec id s).trans (branch_of_underflow fires id hshort)
  · exact (hexec id s).trans (branch_of_unknown fires hos hunknown)
  · rw [hexec, branch_of_one fires hos hlabel, ← htest]
    exact ⟨fun hfires => by rw [if_pos hfires], fun hpasses => by rw [if_neg hpasses]⟩

/-! ### `Call` (43_control.md R139): the label is looked up before the call stack is tested -/

theorem exec_call (id : Word) (s : State) : exec (.call id) s = execCall id s := rfl

theorem exec_call_of_unknown (h : s.lookup id = none) : exec (.call id) s = fail s .unknownLabel := by
  rw [exec_call, execCall, h]

theorem exec_call_of_label (h : s.lookup id = some t) :
    exec (.call id) s = if s.callStackFull then fail s .callStackOverflow else .next ((s.cpush s.npc).goto t) := by
  rw [exec_call, execCall, h]

theorem exec_call_of_full (h : s.lookup id = some t) (hfull : CsFull s) :
    exec (.call id) s = fail s .callStackOverflow := by
  rw [exec_call_of_label h, if_pos (State.callStackFull_iff.mpr hfull)]

theorem exec_call_of_room (h : s.lookup id = some t) (hroom : ¬ CsFull s) :
    exec (.call id) s = .next { s with cs := s.cs ++ [s.pc + 1], pc := t } := by
  rw [exec_call_of_label h, if_neg (hroom ∘ State.callStackFull_iff.mp), State.npc_eq, State.cpush, State.goto]

/-! ### `Ret` and `RetV` (43_control.md R140, R141): the call stack is tested before the operand stack -/

theorem exec_ret (s : State) :
    exec .ret s = if s.cdepth = 0 then fail s .callStackUnderflow else .next (s.cdrop.goto s.ctop) := rfl

theorem exec_ret_of_nil (h : s.cs = []) : exec .ret s = fail s .callStackUnderflow := by
  simp [exec_ret, State.cdepth_eq, h]

theorem exec_ret_of_top (h : s.cs = outer ++ [r]) : exec .ret s = .next { s with cs := outer, pc := r } := by
  rw [exec_ret, if_neg (State.cdepth_ne_zero_of_top h), State.ctop_of_top h, State.cdrop_of_top h, State.goto]

theorem exec_retV (k : Word) (s : State) :
    exec (.retV k) s = if s.cdepth = 0 then fail s .callStackUnderflow
      else if s.stackFull then fail s .stackOverflow
      else .next ((s.push k).cdrop.goto s.ctop) := rfl

theorem exec_retV_of_nil (h : s.cs = []) (k : Word) : exec (.retV k) s = fail s .callStackUnderflow := by
  simp [exec_retV, State.cdepth_eq, h]

theorem exec_retV_of_full (h : s.cs = outer ++ [r]) (hfull : OsFull s) (k : Word) :
    exec (.retV k) s = fail s .stackOverflow := by
  rw [exec_retV, if_neg (State.cdepth_ne_zero_of_top h), if_pos (State.stackFull_iff.mpr hfull)]

theorem exec_retV_of_room (h : s.cs = outer ++ [r]) (hroom : ¬ OsFull s) (k : Word) :
    exec (.retV k) s = .next { s with os := s.os ++ [k], cs := outer, pc := r } := by
  have hpushed : (s.push k).cs = outer ++ [r] := h
  rw [exec_retV, if_neg (State.cdepth_ne_zero_of_top h), if_neg (hroom ∘ State.stackFull_iff.mp), State.ctop_of_top h,
    State.cdrop_of_top hpushed, State.push, State.goto]

/-! ### The obligations -/

/-- Settles O26: the label is undefined or it is defined. -/
theorem jumpGoesToTheMarker : Obligations.JumpGoesToTheMarker :=
  fun _ => ⟨rfl, fun _ => ⟨exec_jump_of_unknown, fun _ => exec_jump_of_label⟩⟩

/-- Settles O27: two branch forms, whose tests decide whether the value is non-zero and whether it is zero. -/
theorem branchesConsumeTheTestedValue : Obligations.BranchesConsumeTheTestedValue :=
  ⟨branchRule_of_exec (fun _ => rfl) exec_brt truthOf_eq_true_iff,
    branchRule_of_exec (fun _ => rfl) exec_brz not_truthOf_eq_true_iff⟩

/-- Settles O28: the undefined label first, then the full call stack, then one with room. -/
theorem callSavesTheNextIndex : Obligations.CallSavesTheNextIndex :=
  fun _ => ⟨rfl, fun _ => ⟨exec_call_of_unknown, fun _ hlabel =>
    ⟨exec_call_of_full hlabel, exec_call_of_room hlabel⟩⟩⟩

/-- Settles O29: the empty call stack first, then for `RetV` the full operand stack, then one with room. -/
theorem retAndRetVPopTheReturnAddress : Obligations.RetAndRetVPopTheReturnAddress :=
  ⟨rfl, fun _ => rfl, fun _ k => ⟨fun hnil => ⟨exec_ret_of_nil hnil, exec_retV_of_nil hnil k⟩, fun _ _ htop =>
    ⟨exec_ret_of_top htop, fun hfull => exec_retV_of_full htop hfull k, fun hroom => exec_retV_of_room htop hroom k⟩⟩⟩

end Sys2Proof.Machine
end

section
/-! PROOFS. The memory instructions (44_memory.md): what an address reads after each memory operation, and for each
instruction the fault it raises and the state it leaves. -/

namespace Sys2Proof.Machine

variable {s : State} {below : List Word} {v : Word}

/-! ### What an address reads after each memory operation (20_memory.md R54)

None of these rules needs the canonical form: the first cell of an address decides what it reads, and every operation
keeps the order of the cells it does not write. -/

namespace Memory

@[simp] theorem entry_nil (a : Nat) : entry [] a = none := rfl

theorem entry_cons (b : Nat) (v : Word) (m : Memory) (a : Nat) :
    entry ((b, v) :: m) a = if b = a then some v else entry m a := rfl

theorem entry_append (m m' : Memory) (a : Nat) : entry (m ++ m') a = (entry m a).or (entry m' a) := by
  induction m with
  | nil => simp
  | cons c m ih =>
    obtain ⟨b, v⟩ := c
    rw [List.cons_append, entry_cons, entry_cons, ih]
    split_ifs <;> simp

/-- Keeping the cells of some addresses makes every other address absent. -/
theorem entry_filter (keep : Nat → Bool) (m : Memory) (a : Nat) :
    entry (m.filter (fun c => keep c.1)) a = if keep a then entry m a else none := by
  induction m with
  | nil => simp
  | cons c m ih =>
    obtain ⟨b, v⟩ := c
    by_cases hba : b = a
    · subst hba
      by_cases hkeep : keep b = true <;> simp [entry_cons, hkeep, ih]
    · by_cases hkeep : keep b = true <;> simp [entry_cons, hkeep, hba, ih]

theorem entry_eq_none_iff {m : Memory} {a : Nat} : entry m a = none ↔ ∀ c ∈ m, c.1 ≠ a := by
  induction m with
  | nil => simp
  | cons c m ih =>
    obtain ⟨b, v⟩ := c
    rw [entry_cons, List.forall_mem_cons, ← ih]
    split_ifs with hba <;> simp [hba]

theorem entry_write (m : Memory) (a : Nat) (v : Word) (b : Nat) :
    (m.write a v).entry b = if a = b then some v else m.entry b := by
  induction m with
  | nil => rw [write, entry_cons]
  | cons c m ih =>
    obtain ⟨b', u⟩ := c
    rcases lt_trichotomy a b' with hbelow | rfl | habove
    · rw [write, if_pos hbelow, entry_cons]
    · rw [write, if_neg (lt_irrefl a), if_pos rfl, entry_cons, entry_cons]
      split_ifs <;> rfl
    · rw [write, if_neg habove.not_gt, if_neg habove.ne', entry_cons, entry_cons, ih]
      by_cases hread : b' = b
      · rw [if_pos hread, if_pos hread, if_neg (hread ▸ habove.ne')]
      · rw [if_neg hread, if_neg hread]

theorem entry_free (m : Memory) (a b : Nat) : (m.free a).entry b = if a = b then none else m.entry b := by
  rw [free, entry_filter (· != a)]
  by_cases h : a = b
  · simp [h]
  · simp [h, Ne.symm h]

theorem free_of_absent {m : Memory} {a : Nat} (h : m.entry a = none) : m.free a = m := by
  rw [free, List.filter_eq_self]
  exact fun c hc => bne_iff_ne.mpr (entry_eq_none_iff.mp h c hc)

/-- A list of cells that all hold 0. -/
theorem entry_map_zero (l : List Nat) (a : Nat) :
    entry (l.map (fun b => (b, 0#32))) a = if a ∈ l then some 0 else none := by
  induction l with
  | nil => simp
  | cons b l ih =>
    rw [List.map_cons, entry_cons, ih]
    by_cases hba : b = a
    · simp [hba]
    · simp [hba, Ne.symm hba]

theorem entry_zeroBlock (m : Memory) (n a : Nat) :
    (m.zeroBlock n).entry a = if a < n then some 0 else m.entry a := by
  rw [zeroBlock, entry_append, entry_map_zero, entry_filter (fun b => decide (n ≤ b))]
  by_cases h : a < n
  · simp [h]
  · simp [h, not_lt.mp h]

end Memory

/-! ### `Load` (44_memory.md R150) -/

theorem State.memRead_of_present {a : Word} (h : s.mem.entry a.toNat = some v) : s.memRead a = v := by
  simp [State.memRead, Memory.read, h]

theorem State.memRead_of_absent {a : Word} (h : s.mem.entry a.toNat = none) : s.memRead a = 0 := by
  simp [State.memRead, Memory.read, h]

/-- `Load` does what `Push` of the word it reads does, memory included: a load creates no entry. -/
theorem exec_load (a : Word) (s : State) : exec (.load a) s = exec (.push (s.memRead a)) s := rfl

theorem exec_load_of_full (h : OsFull s) (a : Word) : exec (.load a) s = fail s .stackOverflow :=
  (exec_load a s).trans (exec_push_of_full h _)

theorem exec_load_of_room (h : ¬ OsFull s) (a : Word) :
    exec (.load a) s = .next { s with os := s.os ++ [s.memRead a], pc := s.pc + 1 } :=
  (exec_load a s).trans (exec_push_of_room h _)

/-! ### `Store` (44_memory.md R151) -/

theorem exec_store (a : Word) (s : State) :
    exec (.store a) s = if s.depth < 1 then fail s .stackUnderflow
      else .next ((s.drop 1).memWrite a (s.peek 0)).advance := rfl

theorem exec_store_of_underflow (h : s.os.length < 1) (a : Word) :
    exec (.store a) s = fail s .stackUnderflow := by
  simp [exec_store, State.depth_eq, h]

theorem exec_store_of_one (h : s.os = below ++ [v]) (a : Word) :
    exec (.store a) s = .next { s with os := below, mem := s.mem.write a.toNat v, pc := s.pc + 1 } := by
  have hdepth : ¬ s.depth < 1 := by simp [State.depth_of_one h]
  rw [exec_store, if_neg hdepth, State.drop_of_one h, State.peek_of_one h, State.advance_eq, State.memWrite]

/-! ### `Alloc` and `Free` (44_memory.md R152, R153) -/

theorem exec_alloc (n : Word) (s : State) :
    exec (.alloc n) s = .next { s with mem := s.mem.zeroBlock n.toInt.toNat, pc := s.pc + 1 } := rfl

theorem exec_free (a : Word) (s : State) :
    exec (.free a) s = .next { s with mem := s.mem.free a.toNat, pc := s.pc + 1 } := rfl

/-- The block of `Alloc(n)` in the signed terms of its rule: a negative address is 2^31 or more unsigned, which no
signed count reaches. -/
theorem toNat_lt_toInt_toNat_iff (a n : Word) :
    a.toNat < n.toInt.toNat ↔ 0 ≤ a.toInt ∧ a.toInt < n.toInt := by
  have hn : n.toInt < 2147483648 := BitVec.toInt_lt (x := n)
  have ha : a.toInt = if 2 * a.toNat < 4294967296 then (a.toNat : Int) else a.toNat - 4294967296 :=
    BitVec.toInt_eq_toNat_cond a
  have hword : a.toNat < 4294967296 := a.isLt
  split_ifs at ha <;> omega

/-! ### The obligations -/

/-- Settles O33: the full stack, and with room the word read at a present and at an absent address. -/
theorem loadPushesTheWordAtTheAddress : Obligations.LoadPushesTheWordAtTheAddress := by
  refine fun a => ⟨rfl, fun s => ⟨fun hfull => exec_load_of_full hfull a, fun hroom v hpresent => ?_,
    fun hroom habsent => ?_⟩⟩
  · rw [exec_load_of_room hroom, State.memRead_of_present hpresent]
  · rw [exec_load_of_room hroom, State.memRead_of_absent habsent]

/-- Settles O34: the empty stack, and on one with a top the write, read at its own address and at any other. -/
theorem storeMakesTheAddressPresent : Obligations.StoreMakesTheAddressPresent := by
  refine fun a => ⟨rfl, fun s => ⟨fun hshort => exec_store_of_underflow hshort a, fun below v hos =>
    ⟨s.mem.write a.toNat v, exec_store_of_one hos a, ?_, fun b hne => ?_⟩⟩⟩
  · rw [Memory.entry_write, if_pos rfl]
  · rw [Memory.entry_write, if_neg (BitVec.toNat_ne_iff_ne.mpr hne.symm)]

/-- Settles O35: the zeroed block, whose unsigned bound says the same as the signed one of the rule. -/
theorem allocZeroesTheBlockFromAddressZero : Obligations.AllocZeroesTheBlockFromAddressZero := by
  refine fun n => ⟨rfl, fun s => ⟨s.mem.zeroBlock n.toInt.toNat, exec_alloc n s, fun a => ?_⟩⟩
  simp only [Memory.entry_zeroBlock, toNat_lt_toInt_toNat_iff]

/-- Settles O36: the freed memory, read at its own address and at any other, and unchanged when the address was
absent. -/
theorem freeMakesTheAddressAbsent : Obligations.FreeMakesTheAddressAbsent := by
  refine fun a => ⟨rfl, fun s => ⟨s.mem.free a.toNat, exec_free a s, ?_, fun b hne => ?_, Memory.free_of_absent⟩⟩
  · rw [Memory.entry_free, if_pos rfl]
  · rw [Memory.entry_free, if_neg (BitVec.toNat_ne_iff_ne.mpr hne.symm)]

end Sys2Proof.Machine
end

section
/-! PROOFS. The input and output instructions (45_io.md): the event each output instruction appends, the request each
input instruction leaves, and the wait that the request opens. -/

namespace Sys2Proof.Machine

variable {s : State} {below : List Word} {a : Word}

/-! ### `Print` and `Write` (45_io.md R161, R163) -/

theorem State.emit_advance_eq (s : State) (e : Event) :
    (s.emit e).advance = { s with out := s.out ++ [e], pc := s.pc + 1 } := rfl

theorem exec_print (s : State) :
    exec .print s = if s.depth ≥ 1 then .next (s.emit (.print (s.peek 0))).advance
      else .next (s.emit .printEmpty).advance := rfl

theorem exec_print_of_one (h : s.os = below ++ [a]) :
    exec .print s = .next { s with out := s.out ++ [.print a], pc := s.pc + 1 } := by
  have hdepth : s.depth ≥ 1 := by simp [State.depth_of_one h]
  rw [exec_print, if_pos hdepth, State.peek_of_one h, State.emit_advance_eq]

theorem exec_print_of_nil (h : s.os = []) :
    exec .print s = .next { s with out := s.out ++ [.printEmpty], pc := s.pc + 1 } := by
  have hdepth : ¬ s.depth ≥ 1 := by simp [State.depth_eq, h]
  rw [exec_print, if_neg hdepth, State.emit_advance_eq]

theorem exec_write (m : Word) (s : State) :
    exec (.write m) s = .next { s with out := s.out ++ [.write m], pc := s.pc + 1 } := rfl

/-! ### `Read` and `Scan` (45_io.md R162, R164) -/

theorem State.request_advance_eq (s : State) (p : Pending) :
    (s.request p).advance = { s with pending := p, pc := s.pc + 1 } := rfl

theorem exec_read (s : State) :
    exec .read s = if s.stackFull then fail s .stackOverflow else .next (s.request .numeric).advance := rfl

theorem exec_read_of_full (h : OsFull s) : exec .read s = fail s .stackOverflow := by
  rw [exec_read, if_pos (State.stackFull_iff.mpr h)]

theorem exec_read_of_room (h : ¬ OsFull s) :
    exec .read s = .next { s with pending := .numeric, pc := s.pc + 1 } := by
  rw [exec_read, if_neg (h ∘ State.stackFull_iff.mp), State.request_advance_eq]

theorem exec_scan (s : State) : exec .scan s = .next { s with pending := .line, pc := s.pc + 1 } := rfl

/-! ### The obligations -/

/-- Settles O40: `Print` on a stack with a top and on the empty one, `Write` on any stack. -/
theorem printAndWriteEmitOneEvent : Obligations.PrintAndWriteEmitOneEvent :=
  ⟨rfl, fun _ => rfl, fun s => ⟨fun _ _ => exec_print_of_one, exec_print_of_nil, fun m => exec_write m s⟩⟩

/-- Settles O41: `Read` on a full stack and on one with room, `Scan` on any stack; then the wait, by the priority of the
status, and its end, by the DELIVER that answers the request. -/
theorem readAndScanRaiseARequest : Obligations.ReadAndScanRaiseARequest := by
  refine ⟨rfl, rfl, fun s =>
    ⟨exec_read_of_full, exec_read_of_room, exec_scan s, fun hfault p hp => ?_, fun v => ⟨?_, ?_⟩⟩⟩
  · exact (State.status_awaitingInput_iff _).mpr ⟨hfault, hp⟩
  · exact deliverCommand_of_numeric rfl v
  · exact deliverCommand_of_line rfl v

end Sys2Proof.Machine
end

section
/-! PROOFS. The bitwise and logical instructions (46_bitwise.md): the shifts of the pseudocode as shifts of words, the
bits of each result, and the truth word that `Bool` leaves. -/

namespace Sys2Proof.Machine

variable {lhs rhs v : Word} {i n : Nat}

/-! ### The instructions and their operand forms (46_bitwise.md R171 to R177) -/

theorem exec_and (s : State) : exec .and s = binary aluAnd s := rfl

theorem exec_or (s : State) : exec .or s = binary aluOr s := rfl

theorem exec_xor (s : State) : exec .xor s = binary aluXor s := rfl

theorem exec_not (s : State) : exec .not s = unary aluNot s := rfl

theorem exec_shl (s : State) : exec .shl s = binary aluShl s := rfl

theorem exec_shr (s : State) : exec .shr s = binary aluShr s := rfl

theorem exec_bool (s : State) : exec .bool s = unary aluBool s := rfl

/-! ### The shifts (46_bitwise.md R175, R176)

The pseudocode shifts by multiplying and dividing integers (00_scope.md R18); on words these are the library's shifts,
whose bits are known. -/

/-- The low five bits of the top are its value modulo 32. -/
theorem shiftAmount_eq (rhs : Word) : shiftAmount rhs = rhs.toNat % 32 := by
  rw [shiftAmount, BitVec.extractLsb'_toNat, Nat.shiftRight_zero]

theorem shl_eq_shiftLeft (v : Word) (n : Nat) : shl v n = v <<< n := by
  calc shl v n = wrap ((v.toNat <<< n : Nat) : Int) := by rw [Nat.shiftLeft_eq, shl, Nat.cast_mul, Nat.cast_pow]; rfl
    _ = BitVec.ofNat 32 (v.toNat <<< n) := BitVec.ofInt_natCast _ _

theorem asr_eq_sshiftRight (v : Word) (n : Nat) : asr v n = v.sshiftRight n := by
  rw [asr, wrap, BitVec.sshiftRight, Int.shiftRight_eq_div_pow, Nat.cast_pow, Nat.cast_ofNat]

theorem getLsbD_shl (hi : i < 32) : (shl v n).getLsbD i = if n ≤ i then v.getLsbD (i - n) else false := by
  rw [shl_eq_shiftLeft, BitVec.getLsbD_shiftLeft]
  by_cases hn : n ≤ i <;> simp [hi, hn]

theorem getLsbD_asr (hi : i < 32) :
    (asr v n).getLsbD i = if i + n < 32 then v.getLsbD (i + n) else v.getLsbD 31 := by
  rw [asr_eq_sshiftRight, BitVec.getLsbD_sshiftRight, BitVec.msb_eq_getLsbD_last, Nat.add_comm n i]
  simp [hi]

theorem getLsbD_aluShl (hi : i < 32) :
    (aluShl lhs rhs).getLsbD i = if rhs.toNat % 32 ≤ i then lhs.getLsbD (i - rhs.toNat % 32) else false := by
  rw [aluShl, shiftAmount_eq, getLsbD_shl hi]

theorem getLsbD_aluShr (hi : i < 32) :
    (aluShr lhs rhs).getLsbD i =
      if i + rhs.toNat % 32 < 32 then lhs.getLsbD (i + rhs.toNat % 32) else lhs.getLsbD 31 := by
  rw [aluShr, shiftAmount_eq, getLsbD_asr hi]

/-! ### `Not` and `Bool` (46_bitwise.md R174, R177) -/

/-- A complement has no bits beyond the width, hence the bound. -/
theorem getLsbD_aluNot (hi : i < 32) : (aluNot v).getLsbD i = !v.getLsbD i := by
  rw [aluNot, BitVec.getLsbD_not, decide_eq_true hi, Bool.true_and]

theorem aluBool_eq_ite (v : Word) : aluBool v = if v = 0 then 0 else 1 := by
  simp only [aluBool, truthWord, truthOf_eq_true_iff, ne_eq, ite_not]

/-! ### The obligations -/

/-- Settles O23: three binary forms and a unary one, each with the word operation that acts bit by bit. -/
theorem andOrXorNotActBitByBit : Obligations.AndOrXorNotActBitByBit :=
  ⟨⟨aluAnd, binaryRule_of_exec rfl exec_and, fun _ _ _ _ => BitVec.getLsbD_and⟩,
    ⟨aluOr, binaryRule_of_exec rfl exec_or, fun _ _ _ _ => BitVec.getLsbD_or⟩,
    ⟨aluXor, binaryRule_of_exec rfl exec_xor, fun _ _ _ _ => BitVec.getLsbD_xor⟩,
    ⟨aluNot, unaryRule_of_exec rfl exec_not, fun _ _ => getLsbD_aluNot⟩⟩

/-- Settles O24: two binary forms, whose functions move the bits by the top modulo 32. -/
theorem shiftsMoveBitsByTheLowFiveBits : Obligations.ShiftsMoveBitsByTheLowFiveBits :=
  ⟨⟨aluShl, binaryRule_of_exec rfl exec_shl, fun _ _ _ => getLsbD_aluShl⟩,
    ⟨aluShr, binaryRule_of_exec rfl exec_shr, fun _ _ _ => getLsbD_aluShr⟩⟩

/-- Settles O25: a unary form, whose function is the truth word of the branches' test. -/
theorem boolCoercesToOneOrZero : Obligations.BoolCoercesToOneOrZero := by
  have hfunction : aluBool = fun v => if v = 0 then 0 else 1 := funext aluBool_eq_ite
  rw [Obligations.BoolCoercesToOneOrZero, ← hfunction]
  exact unaryRule_of_exec rfl exec_bool

end Sys2Proof.Machine
end

section
/-! PROOFS. The debugging instructions (47_debug.md), and that the flag `TRACE` changes nothing but itself: every
instruction, every STEP and every bounded RUN answers the same from two states that differ in the flag, up to the
flag. -/

namespace Sys2Proof.Machine

/-! ### `Dump` and `Trace` (47_debug.md R181, R182) -/

theorem exec_dump (s : State) :
    exec .dump s = .next { s with out := s.out ++ [.dump s.os s.mem], pc := s.pc + 1 } := rfl

theorem exec_trace (f : Bool) (s : State) : exec (.trace f) s = .next { s with trace := f, pc := s.pc + 1 } := rfl

theorem encode_trace (f : Bool) : encode (.trace f) = 0x81#8 ++ 0#31 ++ BitVec.ofBool f := by
  cases f with
  | false => rfl
  | true => rfl

/-- The third case of 30_encoding.md R79, read at the words of `Trace`. -/
theorem exists_decode_trace_eq_error {x : Word} (h : x.extractLsb' 1 31 ≠ 0) :
    ∃ e, decode (mkWord 0x81 x) = .error e := by
  rw [decode_mkWord, exists_decodeFields_eq_error_iff]
  exact .inr (.inr ⟨rfl, h⟩)

/-! ### An answer with its flag replaced -/

/-- The answer `r` with the flag of its state set to `f`; a stop stays as it is. -/
def withTrace (f : Bool) : Result → Result
  | .next t => .next (t.setTrace f)
  | .fault r => .fault r
  | .refused r => .refused r

theorem withTrace_fail (f : Bool) (s : State) (k : FaultKind) : withTrace f (fail s k) = fail (s.setTrace f) k := rfl

theorem withTrace_ite (f : Bool) (c : Prop) [Decidable c] (a b : Result) :
    withTrace f (if c then a else b) = if c then withTrace f a else withTrace f b := apply_ite (withTrace f) c a b

/-- Behind a test that raises a fault, the flag is set in the faulting state or in what follows the test. -/
theorem withTrace_guard (f : Bool) (s : State) (c : Prop) [Decidable c] (k : FaultKind) (r : Result) :
    withTrace f (if c then fail s k else r) = if c then fail (s.setTrace f) k else withTrace f r := by
  rw [withTrace_ite, withTrace_fail]

/-! ### The operand forms do not read the flag

Their tests read the stacks, the parameters and the Label Table, and their updates write other elements. Once
`withTrace` is moved behind the tests, both sides of each equation make the same tests and the same updates. -/

theorem withTrace_binary (g : Word → Word → Word) (f : Bool) (s : State) :
    withTrace f (binary g s) = binary g (s.setTrace f) := withTrace_guard f s _ _ _

theorem withTrace_dividing (g : Word → Word → Word) (f : Bool) (s : State) :
    withTrace f (dividing g s) = dividing g (s.setTrace f) := by
  rw [dividing, withTrace_guard, withTrace_guard]
  rfl

theorem withTrace_unary (g : Word → Word) (f : Bool) (s : State) :
    withTrace f (unary g s) = unary g (s.setTrace f) := withTrace_guard f s _ _ _

theorem withTrace_pushing (v : Word) (f : Bool) (s : State) :
    withTrace f (pushing v s) = pushing v (s.setTrace f) := withTrace_guard f s _ _ _

theorem State.lookup_setTrace (f : Bool) (s : State) (id : Word) : (s.setTrace f).lookup id = s.lookup id := rfl

theorem withTrace_branch (fires : Word → Bool) (id : Word) (f : Bool) (s : State) :
    withTrace f (branch fires id s) = branch fires id (s.setTrace f) := by
  rw [branch, branch, withTrace_guard, State.lookup_setTrace]
  cases s.lookup id with
  | none => rfl
  | some t =>
    have htaken : withTrace f (.next (if fires (s.peek 0) then (s.drop 1).goto t else (s.drop 1).advance)) =
        .next (if fires (s.peek 0) then ((s.drop 1).goto t).setTrace f else (s.drop 1).advance.setTrace f) :=
      congrArg Host.Outcome.next (apply_ite (State.setTrace · f) _ _ _)
    rw [htaken]
    rfl

/-! ### The instructions -/

theorem withTrace_exec_dup (f : Bool) (s : State) :
    withTrace f (exec .dup s) = exec .dup (s.setTrace f) := by
  rw [exec_dup, withTrace_guard, withTrace_guard]
  rfl

theorem withTrace_exec_jump (id : Word) (f : Bool) (s : State) :
    withTrace f (exec (.jump id) s) = exec (.jump id) (s.setTrace f) := by
  rw [exec_jump, exec_jump, execJump, execJump, State.lookup_setTrace]
  cases s.lookup id with
  | none => rfl
  | some t => rfl

theorem withTrace_exec_call (id : Word) (f : Bool) (s : State) :
    withTrace f (exec (.call id) s) = exec (.call id) (s.setTrace f) := by
  rw [exec_call, exec_call, execCall, execCall, State.lookup_setTrace]
  cases s.lookup id with
  | none => rfl
  | some t => exact withTrace_guard f s _ _ _

theorem withTrace_exec_retV (k : Word) (f : Bool) (s : State) :
    withTrace f (exec (.retV k) s) = exec (.retV k) (s.setTrace f) := by
  rw [exec_retV, withTrace_guard, withTrace_guard]
  rfl

/-- The flag that the instruction leaves where it was `f`: `Trace` alone writes it (10_state.md R39). -/
def traceAfter (f : Bool) : Instr → Bool
  | .trace g => g
  | _ => f

/-- An instruction answers the same whatever the flag holds; after `Trace(g)` the flag holds `g` on both sides. -/
theorem withTrace_exec (i : Instr) (f : Bool) (s : State) :
    withTrace (traceAfter f i) (exec i s) = exec i (s.setTrace f) := by
  cases i with
  | push k => exact withTrace_pushing k f s
  | load a => exact withTrace_pushing (s.memRead a) f s
  | add | sub | mul | eq | ne | le | ge | lt | gt | and | or | xor | shl | shr => exact withTrace_binary _ f s
  | div | rem => exact withTrace_dividing _ f s
  | neg | inc | dec | not | bool => exact withTrace_unary _ f s
  | brt id => exact withTrace_branch truthOf id f s
  | brz id => exact withTrace_branch (fun v => !truthOf v) id f s
  | dup => exact withTrace_exec_dup f s
  | jump id => exact withTrace_exec_jump id f s
  | call id => exact withTrace_exec_call id f s
  | retV k => exact withTrace_exec_retV k f s
  | pop | swap | rot | ret | store _ | read => exact withTrace_guard f s _ _ _
  | print => exact withTrace_ite f _ _ _
  | clear | label _ | halt | alloc _ | free _ | write _ | scan | dump | trace _ => rfl

/-! ### STEP and RUN -/

theorem State.status_setTrace (f : Bool) (s : State) : (s.setTrace f).status = s.status := rfl

theorem State.fetch_setTrace (f : Bool) (s : State) : (s.setTrace f).fetch = s.fetch := rfl

theorem step_of_fetch_none {s : State} (h : s.status = .ready) (hf : s.fetch = none) :
    step s = .fault .fetchOutsideProgram := by
  rw [step, h, hf]

/-- A STEP answers the same from two states that differ in the flag, up to the flag: it decides on the status and the
word at PC, which do not read it. -/
theorem step_setTrace (f : Bool) (s : State) : ∃ g, step (s.setTrace f) = withTrace g (step s) := by
  have hstatus := State.status_setTrace f s
  have hfetch := State.fetch_setTrace f s
  rcases step_cases s with ⟨hstop, hs⟩ | ⟨hready, ⟨hf, hs⟩ | ⟨w, e, hf, hd, hs⟩ | ⟨w, i, hf, hd, hs⟩⟩ <;> rw [hs]
  · exact ⟨f, step_of_not_ready (hstatus.trans_ne hstop)⟩
  · exact ⟨f, step_of_fetch_none (hstatus.trans hready) (hfetch.trans hf)⟩
  · exact ⟨f, step_of_decode_error (hstatus.trans hready) (hfetch.trans hf) hd⟩
  · refine ⟨traceAfter f i, ?_⟩
    rw [withTrace_exec]
    exact step_of_decode_ok (hstatus.trans hready) (hfetch.trans hf) hd

/-- Two bounded RUNs from states that differ in the flag stay, STEP by STEP, at states that differ in the flag. -/
theorem runFor_setTrace {n : Nat} {s t : State} (f : Bool) (h : runFor n s = .next t) :
    ∃ g, runFor n (s.setTrace f) = .next (t.setTrace g) := by
  induction n generalizing s f with
  | zero =>
    obtain rfl : s = t := Host.Outcome.next.inj h
    exact ⟨f, rfl⟩
  | succ n ih =>
    rcases runFor_succ_eq_next_iff.mp h with ⟨hstop, rfl⟩ | ⟨hready, u, hu, hrun⟩
    · exact ⟨f, runFor_of_not_ready ((State.status_setTrace f t).trans_ne hstop) (n + 1)⟩
    · obtain ⟨g, hstep⟩ := step_setTrace f s
      rw [hu, withTrace] at hstep
      rw [runFor_succ_of_step ((State.status_setTrace f s).trans hready) hstep]
      exact ih g hrun

/-! ### The obligations -/

/-- Settles O42: the three words, and both instructions on any state. -/
theorem dumpEmitsASnapshotAndTraceSetsTheFlag : Obligations.DumpEmitsASnapshotAndTraceSetsTheFlag :=
  ⟨rfl, rfl, rfl, fun s => ⟨exec_dump s, fun f => exec_trace f s⟩⟩

/-- Settles O51: `Trace` on any state, its illegal words by the format of its opcode, and the two runs by induction on
the number of STEPs. -/
theorem tracingNeverChangesARun : Obligations.TracingNeverChangesARun := by
  refine ⟨fun f => ⟨encode_trace f, exec_trace f⟩, fun x => exists_decode_trace_eq_error, fun n s t f hrun => ?_⟩
  obtain ⟨g, hother⟩ := runFor_setTrace f hrun
  exact ⟨t.setTrace g, hother, rfl⟩

end Sys2Proof.Machine
end

section
/-! PROOFS. The faults (60_exceptions.md R204, R205, R207): an instruction that raises one has done nothing else, an
illegal word raises IllegalInstruction, and Faulted is left only by RESET and LOAD. -/

namespace Sys2Proof.Machine

variable {s t : State} {a b : Result}

/-! ### A fault is raised by `fail` or not at all -/

/-- The answer `r` at `s` is a fault that did nothing else, or a completion that left the fault kind alone. -/
def FailsOrKeepsFault (s : State) (r : Result) : Prop :=
  (∃ k, r = fail s k) ∨ ∃ t, r = .next t ∧ t.faultKind = s.faultKind

theorem failsOrKeepsFault_fail (s : State) (k : FaultKind) : FailsOrKeepsFault s (fail s k) := .inl ⟨k, rfl⟩

theorem failsOrKeepsFault_next (h : t.faultKind = s.faultKind) : FailsOrKeepsFault s (.next t) := .inr ⟨t, rfl, h⟩

theorem failsOrKeepsFault_ite {c : Prop} [Decidable c] (ha : FailsOrKeepsFault s a) (hb : FailsOrKeepsFault s b) :
    FailsOrKeepsFault s (if c then a else b) := by
  split_ifs
  · exact ha
  · exact hb

/-- Behind a test that raises a fault, what follows the test decides. -/
theorem failsOrKeepsFault_guard {c : Prop} [Decidable c] {k : FaultKind} (h : FailsOrKeepsFault s b) :
    FailsOrKeepsFault s (if c then fail s k else b) :=
  failsOrKeepsFault_ite (failsOrKeepsFault_fail s k) h

/-! ### The operand forms, each by the law that says all it can answer -/

theorem failsOrKeepsFault_binary (f : Word → Word → Word) (s : State) : FailsOrKeepsFault s (binary f s) := by
  rcases binary_cases f s with ⟨_, h⟩ | ⟨_, _, _, _, h⟩
  · exact .inl ⟨_, h⟩
  · exact .inr ⟨_, h, rfl⟩

theorem failsOrKeepsFault_dividing (f : Word → Word → Word) (s : State) : FailsOrKeepsFault s (dividing f s) := by
  rcases dividing_cases f s with ⟨_, h⟩ | ⟨_, _, _, _, ⟨_, h⟩ | ⟨_, h⟩⟩
  · exact .inl ⟨_, h⟩
  · exact .inl ⟨_, h⟩
  · exact .inr ⟨_, h, rfl⟩

theorem failsOrKeepsFault_unary (f : Word → Word) (s : State) : FailsOrKeepsFault s (unary f s) := by
  rcases unary_cases f s with ⟨_, h⟩ | ⟨_, _, _, h⟩
  · exact .inl ⟨_, h⟩
  · exact .inr ⟨_, h, rfl⟩

theorem failsOrKeepsFault_pushing (v : Word) (s : State) : FailsOrKeepsFault s (pushing v s) := by
  rcases pushing_cases v s with ⟨_, h⟩ | ⟨_, h⟩
  · exact .inl ⟨_, h⟩
  · exact .inr ⟨_, h, rfl⟩

theorem failsOrKeepsFault_branch (fires : Word → Bool) (id : Word) (s : State) :
    FailsOrKeepsFault s (branch fires id s) := by
  rcases branch_cases fires id s with ⟨_, h⟩ | ⟨_, _, _, ⟨_, h⟩ | ⟨_, _, h⟩⟩
  · exact .inl ⟨_, h⟩
  · exact .inl ⟨_, h⟩
  · exact .inr ⟨_, h, rfl⟩

/-! ### The instructions -/

theorem failsOrKeepsFault_exec_jump (id : Word) (s : State) : FailsOrKeepsFault s (exec (.jump id) s) := by
  cases hlookup : s.lookup id with
  | none => exact .inl ⟨_, exec_jump_of_unknown hlookup⟩
  | some t => exact .inr ⟨_, exec_jump_of_label hlookup, rfl⟩

theorem failsOrKeepsFault_exec_call (id : Word) (s : State) : FailsOrKeepsFault s (exec (.call id) s) := by
  cases hlookup : s.lookup id with
  | none => exact .inl ⟨_, exec_call_of_unknown hlookup⟩
  | some t =>
    rw [exec_call_of_label hlookup]
    exact failsOrKeepsFault_guard (failsOrKeepsFault_next rfl)

/-- Every instruction tests before it writes (00_scope.md R17), and no write is to the fault pair. -/
theorem failsOrKeepsFault_exec (i : Instr) (s : State) : FailsOrKeepsFault s (exec i s) := by
  cases i with
  | push k => exact failsOrKeepsFault_pushing k s
  | load a => exact failsOrKeepsFault_pushing (s.memRead a) s
  | add | sub | mul | eq | ne | le | ge | lt | gt | and | or | xor | shl | shr => exact failsOrKeepsFault_binary _ s
  | div | rem => exact failsOrKeepsFault_dividing _ s
  | neg | inc | dec | not | bool => exact failsOrKeepsFault_unary _ s
  | brt id => exact failsOrKeepsFault_branch truthOf id s
  | brz id => exact failsOrKeepsFault_branch (fun v => !truthOf v) id s
  | jump id => exact failsOrKeepsFault_exec_jump id s
  | call id => exact failsOrKeepsFault_exec_call id s
  | dup | retV _ => exact failsOrKeepsFault_guard (failsOrKeepsFault_guard (failsOrKeepsFault_next rfl))
  | pop | swap | rot | ret | store _ | read => exact failsOrKeepsFault_guard (failsOrKeepsFault_next rfl)
  | print => exact failsOrKeepsFault_ite (failsOrKeepsFault_next rfl) (failsOrKeepsFault_next rfl)
  | clear | label _ | halt | alloc _ | free _ | write _ | scan | dump | trace _ => exact failsOrKeepsFault_next rfl

/-! ### The commands at an illegal word and in Faulted -/

/-- A program that has a word at PC has not ended there. -/
theorem State.status_ready_of_fetch {w : InstrWord} (hfault : s.faultKind = .none) (hpending : s.pending = .none)
    (hfetch : s.fetch = some w) : s.status = .ready := by
  obtain ⟨hlt, _⟩ := List.getElem?_eq_some_iff.mp hfetch
  exact s.status_ready_iff.mpr ⟨hfault, hpending, hlt.ne⟩

/-- RUN does nothing outside Ready. -/
theorem runReturns_iff_of_not_ready (h : s.status ≠ .ready) : RunReturns s t ↔ t = s := by
  constructor
  · exact fun ht => ht.unique (.stop s h)
  · rintro rfl
    exact .stop t h

theorem resetCommand_status (s : State) : (resetCommand s).status = .halted :=
  (State.status_halted_iff _).mpr ⟨rfl, rfl, rfl⟩

/-- LOAD reads the parameters of the state and nothing else, and RESET keeps them (70_reset_and_hazards.md R231). -/
theorem loadCommand_resetCommand (program : List InstrWord) (s : State) :
    loadCommand program (resetCommand s) = loadCommand program s := rfl

/-! ### The obligations -/

/-- Settles O45: the answer is that of `fail`, since a completion would leave the state fault-free. -/
theorem faultsArePrecise : Obligations.FaultsArePrecise := by
  intro i s t hnone hexec hfault
  rcases failsOrKeepsFault_exec i s with ⟨k, hfail⟩ | ⟨u, hnext, hkeeps⟩
  · obtain rfl : s.raise k = t := Host.Outcome.next.inj (hfail.symm.trans hexec)
    exact ⟨rfl, (State.status_faulted_iff _).mpr hfault⟩
  · obtain rfl : u = t := Host.Outcome.next.inj (hnext.symm.trans hexec)
    exact absurd (hkeeps.trans hnone) hfault

/-- Settles O7: the word at PC makes the status Ready, and STEP then fetches it. -/
theorem illegalWordRaisesIllegalInstruction : Obligations.IllegalWordRaisesIllegalInstruction :=
  fun _ _ _ hfault hpending hfetch hdecode =>
    step_of_decode_error (State.status_ready_of_fetch hfault hpending hfetch) hfetch hdecode

/-- Settles O47: STEP and RUN by the status, DELIVER by the absent request, RESET and LOAD by the state they start
from. -/
theorem faultedIsTerminalUntilReset : Obligations.FaultedIsTerminalUntilReset := by
  intro s hfault hpending
  have hstop : s.status ≠ .ready := by rw [s.status_faulted_iff.mpr hfault]; decide
  refine ⟨step_of_not_ready hstop, runFor_of_not_ready hstop, fun t => runReturns_iff_of_not_ready hstop,
    fun v => ?_, fun t hreset => ?_, fun program => (loadCommand_resetCommand program s).symm⟩
  · rw [command, deliverCommand_of_none hpending v]
  · obtain rfl : resetCommand s = t := Host.Outcome.next.inj hreset
    exact resetCommand_status s

end Sys2Proof.Machine
end

section
/-! PROOFS. The decoder, the encoder and the opcode map (30_encoding.md R77, R78, R81): the two directions of the round
trip, the rows that match and mask accept, and the unit each instruction is sent to. -/

namespace Sys2Proof

variable {op : Opcode} {w : InstrWord} {x : Word} {i j : Instr}

/-! ### The round trip (30_encoding.md R78) -/

theorem decode_encode (i : Instr) : decode (encode i) = .ok i := by
  cases i with
  | trace f => cases f <;> rfl
  | _ => simp [encode, decodeFields, noOperand]

theorem noOperand_eq_ok_iff : noOperand x i = .ok j ↔ x = 0 ∧ i = j := by
  unfold noOperand
  split_ifs with hx
  · simp [hx]
  · exact ⟨nofun, fun h => absurd h.1 hx⟩

/-- An opcode of format N is that of the instruction which the decoder reads from it. -/
theorem exists_encode_of_formatN (h : FormatNOpcode op.toNat) :
    ∃ i, encode i = mkWord op 0 ∧ ∀ x, decodeFields op x = noOperand x i := by
  obtain ⟨n, rfl, hn⟩ : ∃ n, op = BitVec.ofNat 8 n ∧ FormatNOpcode n :=
    ⟨op.toNat, (BitVec.ofNat_toNat 8 op).symm, h⟩
  rcases hn with ⟨hlo, hhi⟩ | ⟨hlo, hhi⟩ | ⟨hlo, hhi⟩ | rfl | rfl | rfl | rfl | rfl | ⟨hlo, hhi⟩ | rfl
  · interval_cases n <;> exact ⟨_, rfl, fun _ => rfl⟩
  · interval_cases n <;> exact ⟨_, rfl, fun _ => rfl⟩
  · interval_cases n <;> exact ⟨_, rfl, fun _ => rfl⟩
  · exact ⟨.ret, rfl, fun _ => rfl⟩
  · exact ⟨.halt, rfl, fun _ => rfl⟩
  · exact ⟨.print, rfl, fun _ => rfl⟩
  · exact ⟨.read, rfl, fun _ => rfl⟩
  · exact ⟨.scan, rfl, fun _ => rfl⟩
  · interval_cases n <;> exact ⟨_, rfl, fun _ => rfl⟩
  · exact ⟨.dump, rfl, fun _ => rfl⟩

/-- An opcode with a free operand field is that of the instruction which the decoder reads from it, operand included. -/
theorem exists_encode_of_payload (h : PayloadOpcode op.toNat) :
    ∃ i : Word → Instr, ∀ x, encode (i x) = mkWord op x ∧ decodeFields op x = .ok (i x) := by
  obtain ⟨n, rfl, hn⟩ : ∃ n, op = BitVec.ofNat 8 n ∧ PayloadOpcode n :=
    ⟨op.toNat, (BitVec.ofNat_toNat 8 op).symm, h⟩
  rcases hn with rfl | ⟨hlo, hhi⟩ | rfl | rfl | ⟨hlo, hhi⟩ | rfl
  · exact ⟨.push, fun _ => ⟨rfl, rfl⟩⟩
  · interval_cases n
    · exact ⟨.jump, fun _ => ⟨rfl, rfl⟩⟩
    · exact ⟨.brt, fun _ => ⟨rfl, rfl⟩⟩
    · exact ⟨.brz, fun _ => ⟨rfl, rfl⟩⟩
    · exact ⟨.call, fun _ => ⟨rfl, rfl⟩⟩
  · exact ⟨.retV, fun _ => ⟨rfl, rfl⟩⟩
  · exact ⟨.label, fun _ => ⟨rfl, rfl⟩⟩
  · interval_cases n
    · exact ⟨.load, fun _ => ⟨rfl, rfl⟩⟩
    · exact ⟨.store, fun _ => ⟨rfl, rfl⟩⟩
    · exact ⟨.alloc, fun _ => ⟨rfl, rfl⟩⟩
    · exact ⟨.free, fun _ => ⟨rfl, rfl⟩⟩
  · exact ⟨.write, fun _ => ⟨rfl, rfl⟩⟩

/-- An operand field whose upper 31 bits are 0 is its lowest bit. -/
theorem eq_flag_of_upper_bits_zero (h : x.extractLsb' 1 31 = 0) : x = if x.getLsbD 0 then 1 else 0 := by
  have hupper : ∀ k, 1 ≤ k → k < 32 → x.getLsbD k = false := by
    intro k hlo hhi
    have hbit := congrArg (BitVec.getLsbD · (k - 1)) h
    simpa [show k - 1 < 31 by omega, show 1 + (k - 1) = k by omega] using hbit
  apply BitVec.eq_of_getLsbD_eq
  intro k hk
  rcases Nat.eq_zero_or_pos k with rfl | hpos
  · cases x.getLsbD 0 <;> rfl
  · rw [hupper k hpos hk]
    cases x.getLsbD 0
    · simp
    · simp [show k ≠ 0 by omega]

/-- The mask of format F keeps the upper 31 bits of the operand field. -/
theorem and_flag_mask_eq_zero_iff : x &&& 0xFFFFFFFE = 0 ↔ x.extractLsb' 1 31 = 0 := by
  constructor
  · intro h
    have hupper : (x &&& 0xFFFFFFFE).extractLsb' 1 31 = x.extractLsb' 1 31 := by
      rw [BitVec.extractLsb'_and]
      exact BitVec.and_allOnes
    rw [← hupper, h]
    rfl
  · intro h
    rw [eq_flag_of_upper_bits_zero h]
    cases x.getLsbD 0 <;> rfl

theorem encode_of_decodeFields (h : decodeFields op x = .ok i) : encode i = mkWord op x := by
  rcases opcode_format_cases op.toNat with hop | hop | hop | hop
  · rw [decodeFields_of_unassigned hop] at h
    cases h
  · obtain ⟨j, hj, hdecode⟩ := exists_encode_of_formatN hop
    obtain ⟨rfl, rfl⟩ := noOperand_eq_ok_iff.mp ((hdecode x).symm.trans h)
    exact hj
  · obtain ⟨f, hf⟩ := exists_encode_of_payload hop
    obtain ⟨hencode, hdecode⟩ := hf x
    obtain rfl := Except.ok.inj (hdecode.symm.trans h)
    exact hencode
  · rw [decodeFields_of_trace hop] at h
    split_ifs at h with hx
    obtain rfl := Except.ok.inj h
    obtain rfl : op = 0x81 := BitVec.eq_of_toNat_eq hop
    rw [encode, ← eq_flag_of_upper_bits_zero hx]

theorem encode_of_decode (h : decode w = .ok i) : encode i = w :=
  (encode_of_decodeFields h).trans (mkWord_opcodeOf_operandOf w)

/-! ### The rows of the opcode map (30_encoding.md R77)

A row reads the word by match and mask. What it accepts is said here in the fields of the word. -/

theorem mkWord_inj {op' : Opcode} {x' : Word} : mkWord op x = mkWord op' x' ↔ op = op' ∧ x = x' := by
  refine ⟨fun h => ⟨?_, ?_⟩, fun ⟨hop, hx⟩ => by rw [hop, hx]⟩
  · simpa using congrArg opcodeOf h
  · simpa using congrArg operandOf h

theorem mkWord_and_mkWord (op op' : Opcode) (x x' : Word) :
    mkWord op x &&& mkWord op' x' = mkWord (op &&& op') (x &&& x') := BitVec.and_append

/-- A mask that keeps the opcode keeps of the operand what its own operand field keeps. -/
theorem and_opcode_mask (w : InstrWord) (m : Word) :
    w &&& mkWord 0xFF m = mkWord (opcodeOf w) (operandOf w &&& m) := by
  have hopcode : opcodeOf w &&& 0xFF = opcodeOf w := BitVec.and_allOnes
  conv_lhs => rw [← mkWord_opcodeOf_operandOf w, mkWord_and_mkWord, hopcode]

theorem formatN_accepts_iff : (EncodingRow.formatN op).accepts w = true ↔ opcodeOf w = op ∧ operandOf w = 0 := by
  have hoperand : operandOf w &&& 0xFFFFFFFF = operandOf w := BitVec.and_allOnes
  rw [EncodingRow.accepts, beq_iff_eq]
  show w &&& mkWord 0xFF 0xFFFFFFFF = mkWord op 0 ↔ _
  rw [and_opcode_mask, hoperand, mkWord_inj]

theorem formatPayload_accepts_iff : (EncodingRow.formatPayload op).accepts w = true ↔ opcodeOf w = op := by
  rw [EncodingRow.accepts, beq_iff_eq]
  show w &&& mkWord 0xFF 0 = mkWord op 0 ↔ _
  have hoperand : operandOf w &&& 0 = 0 := BitVec.and_zero
  rw [and_opcode_mask, mkWord_inj, hoperand, eq_self, and_true]

theorem formatF_accepts_iff :
    (EncodingRow.formatF op).accepts w = true ↔ opcodeOf w = op ∧ (operandOf w).extractLsb' 1 31 = 0 := by
  rw [EncodingRow.accepts, beq_iff_eq]
  show w &&& mkWord 0xFF 0xFFFFFFFE = mkWord op 0 ↔ _
  rw [and_opcode_mask, mkWord_inj, and_flag_mask_eq_zero_iff]

theorem formatN_mem_encodingTable (h : FormatNOpcode op.toNat) : EncodingRow.formatN op ∈ encodingTable := by
  revert op
  unfold FormatNOpcode
  decide

/-- The three kinds of row, by the format of the row's opcode. -/
theorem encodingTable_formats : ∀ r ∈ encodingTable,
    (FormatNOpcode (opcodeOf r.value).toNat ∧ r = .formatN (opcodeOf r.value)) ∨
    (PayloadOpcode (opcodeOf r.value).toNat ∧ r = .formatPayload (opcodeOf r.value)) ∨ r = .formatF 0x81 := by
  unfold FormatNOpcode PayloadOpcode
  decide

theorem formatPayload_mem_encodingTable (h : PayloadOpcode op.toNat) :
    EncodingRow.formatPayload op ∈ encodingTable := by
  revert op
  unfold PayloadOpcode
  decide

/-- Each row keeps the opcode of the word. -/
theorem opcodeOf_of_accepts {r : EncodingRow} (hr : r ∈ encodingTable) (h : r.accepts w = true) :
    opcodeOf r.value = opcodeOf w := by
  rcases encodingTable_formats r hr with ⟨_, hrow⟩ | ⟨_, hrow⟩ | rfl
  · rw [hrow] at h
    exact (formatN_accepts_iff.mp h).1.symm
  · rw [hrow] at h
    exact (formatPayload_accepts_iff.mp h).symm
  · exact (formatF_accepts_iff.mp h).1.symm

theorem encodingTable_opcodes_nodup : (encodingTable.map (fun r => opcodeOf r.value)).Nodup := by decide

theorem accepts_unique {r r' : EncodingRow} (hr : r ∈ encodingTable) (hr' : r' ∈ encodingTable)
    (h : r.accepts w = true) (h' : r'.accepts w = true) : r = r' :=
  List.inj_on_of_nodup_map encodingTable_opcodes_nodup hr hr'
    ((opcodeOf_of_accepts hr h).trans (opcodeOf_of_accepts hr' h').symm)

/-- A row accepts the words that the decoder accepts at the row's opcode. -/
theorem exists_decode_of_accepts {r : EncodingRow} (hr : r ∈ encodingTable) (h : r.accepts w = true) :
    ∃ i, decode w = .ok i := by
  rcases encodingTable_formats r hr with ⟨hop, hrow⟩ | ⟨hop, hrow⟩ | rfl
  · rw [hrow, formatN_accepts_iff] at h
    obtain ⟨hopcode, hoperand⟩ := h
    obtain ⟨i, _, hdecode⟩ := exists_encode_of_formatN hop
    exact ⟨i, by rw [decode, hopcode, hoperand, hdecode, noOperand, if_pos rfl]⟩
  · rw [hrow, formatPayload_accepts_iff] at h
    obtain ⟨f, hf⟩ := exists_encode_of_payload hop
    exact ⟨f (operandOf w), by rw [decode, h, (hf _).2]⟩
  · obtain ⟨hopcode, hoperand⟩ := formatF_accepts_iff.mp h
    exact ⟨_, by rw [decode, hopcode, decodeFields_of_trace rfl, if_pos hoperand]⟩

theorem exists_accepts_of_decodeFields (h : decodeFields op x = .ok i) :
    ∃ r ∈ encodingTable, r.accepts (mkWord op x) = true := by
  rcases opcode_format_cases op.toNat with hop | hop | hop | hop
  · rw [decodeFields_of_unassigned hop] at h
    cases h
  · obtain ⟨j, _, hdecode⟩ := exists_encode_of_formatN hop
    obtain ⟨rfl, _⟩ := noOperand_eq_ok_iff.mp ((hdecode x).symm.trans h)
    exact ⟨_, formatN_mem_encodingTable hop, by simp [formatN_accepts_iff]⟩
  · exact ⟨_, formatPayload_mem_encodingTable hop, by simp [formatPayload_accepts_iff]⟩
  · rw [decodeFields_of_trace hop] at h
    split_ifs at h with hx
    obtain rfl : op = 0x81 := BitVec.eq_of_toNat_eq hop
    exact ⟨.formatF 0x81, by decide, by simp [formatF_accepts_iff, hx]⟩

/-! ### The dispatch units (30_encoding.md R81) -/

end Sys2Proof

namespace Sys2Proof.Machine

/-- The units of 30_encoding.md R81, by the groups of the opcode map. -/
def dispatchUnit : Instr → DispatchUnit
  | .push _ | .pop | .dup | .swap | .rot | .clear => .stack
  | .add | .sub | .mul | .div | .rem | .eq | .ne | .le | .ge | .lt | .gt | .and | .or | .xor | .shl | .shr => .aluBinary
  | .neg | .inc | .dec | .not | .bool => .aluUnary
  | .jump _ | .brt _ | .brz _ | .call _ | .ret | .retV _ | .label _ | .halt => .control
  | .load _ | .store _ | .alloc _ | .free _ => .memory
  | .print | .read | .write _ | .scan => .io
  | .dump | .trace _ => .debug

/-- The unit that an instruction's opcode names is the unit of its group. -/
theorem unitOf_eq (i : Instr) : unitOf i = some (dispatchUnit i) := by
  cases i <;> simp [unitOf, encode, unitOfOpcode, dispatchUnit]

theorem dispatchUnit_eq_aluBinary_iff (i : Instr) :
    dispatchUnit i = .aluBinary ↔ i ∈ [.add, .sub, .mul, .div, .rem, .eq, .ne, .le, .ge, .lt, .gt, .and, .or, .xor,
      .shl, .shr] := by
  cases i <;> simp [dispatchUnit]

theorem dispatchUnit_eq_aluUnary_iff (i : Instr) :
    dispatchUnit i = .aluUnary ↔ i ∈ [.neg, .inc, .dec, .not, .bool] := by
  cases i <;> simp [dispatchUnit]

/-! ### The obligations -/

/-- Settles O1: each instruction's word by evaluation; each legal word by the format of its opcode. -/
theorem decodeAndEncodeAreInverse : Obligations.DecodeAndEncodeAreInverse :=
  ⟨decode_encode, fun _ _ => encode_of_decode⟩

/-- Settles O2: a decoded word is accepted by the row of its opcode, an accepted word decodes by the format of its row,
and a row is found by its opcode, which it keeps of the word. -/
theorem decodeAcceptsExactlyTheOpcodeMap : Obligations.DecodeAcceptsExactlyTheOpcodeMap := by
  refine ⟨rfl, fun w => ⟨?_, ?_⟩, fun w r hr r' hr' => accepts_unique hr hr'⟩
  · rintro ⟨i, hi⟩
    exact mkWord_opcodeOf_operandOf w ▸ exists_accepts_of_decodeFields hi
  · rintro ⟨r, hr, h⟩
    exact exists_decode_of_accepts hr h

/-- Settles O4: the eight words by evaluation. -/
theorem sampleWordsDecodeToTheirInstructions : Obligations.SampleWordsDecodeToTheirInstructions :=
  ⟨rfl, rfl, rfl, rfl, rfl, rfl, rfl, rfl⟩

/-- Settles O5: the unit by the instruction's group, and the stack effect of each instruction that a group names. -/
theorem dispatchUnitsFitTheirStackEffects : Obligations.DispatchUnitsFitTheirStackEffects := by
  intro i
  simp only [unitOf_eq, Option.some.injEq]
  refine ⟨⟨_, rfl⟩, dispatchUnit_eq_aluBinary_iff i, dispatchUnit_eq_aluUnary_iff i, fun d h => ?_, fun d h => ?_⟩
  · have hmem := (dispatchUnit_eq_aluBinary_iff i).mp h
    fin_cases hmem <;> rfl
  · have hmem := (dispatchUnit_eq_aluUnary_iff i).mp h
    fin_cases hmem <;> rfl

end Sys2Proof.Machine
end

section
/-! PROOFS. What an instruction can answer, said once: the tests of the fault table in their order (60_exceptions.md
R202, R203), and behind them a commit that writes the instruction's own elements and nothing else (10_state.md R39). The table
of stack effects (30_encoding.md R80), the fault table, the table of writers and the frame of a RUN are read off it. -/

namespace Sys2Proof.Machine

variable {i : Instr} {s t : State} {k : FaultKind} {ks : List FaultKind} {r b : Result}

/-! ### A commit -/

/-- The stack `os'` is `os` with its top `pops` elements replaced by `pushes` others. -/
def Replaces (os os' : List Word) (pops pushes : Nat) : Prop :=
  ∃ below removed added, os = below ++ removed ∧ os' = below ++ added ∧ removed.length = pops ∧ added.length = pushes

theorem replaces_none (os : List Word) : Replaces os os 0 0 :=
  ⟨os, [], [], (List.append_nil os).symm, (List.append_nil os).symm, rfl, rfl⟩

theorem replaces_drop {os : List Word} {n : Nat} (h : n ≤ os.length) : Replaces os (os.take (os.length - n)) n 0 :=
  ⟨_, _, [], (List.take_append_drop _ _).symm, (List.append_nil _).symm, by rw [List.length_drop]; omega, rfl⟩

theorem Replaces.push {os os' : List Word} {pops pushes : Nat} (h : Replaces os os' pops pushes) (v : Word) :
    Replaces os (os' ++ [v]) pops (pushes + 1) := by
  obtain ⟨below, removed, added, hos, rfl, hremoved, rfl⟩ := h
  exact ⟨below, removed, added ++ [v], hos, List.append_assoc _ _ _, hremoved, List.length_append⟩

theorem Replaces.eq_of_none {os os' : List Word} (h : Replaces os os' 0 0) : os' = os := by
  obtain ⟨below, removed, added, rfl, rfl, hremoved, hadded⟩ := h
  rw [List.length_eq_zero_iff.mp hremoved, List.length_eq_zero_iff.mp hadded]

theorem Replaces.length_eq {os os' : List Word} {pops pushes : Nat} (h : Replaces os os' pops pushes) :
    os'.length = os.length - pops + pushes := by
  obtain ⟨below, removed, added, rfl, rfl, rfl, rfl⟩ := h
  simp

theorem Replaces.take_eq {os os' : List Word} {pops pushes : Nat} (h : Replaces os os' pops pushes) :
    os'.take (os.length - pops) = os.take (os.length - pops) := by
  obtain ⟨below, removed, added, rfl, rfl, rfl, rfl⟩ := h
  simp

/-- Where control can go: to the next instruction, to a label, to a return address, or to `L`. -/
def IsTarget (s : State) (target : Index) : Prop :=
  target = s.pc + 1 ∨ (∃ id, s.lookup id = some target) ∨ target ∈ s.cs ∨ target = s.progLen

/-- `t` is a state that `i` can leave at `s` when it commits: each element keeps its value or is written by an
instruction that writes it (10_state.md R39). An element keeps its value where a proof does not say otherwise. -/
structure Commits (i : Instr) (s t : State) : Prop where
  cfg_eq : t.cfg = s.cfg := by rfl
  prog_eq : t.prog = s.prog := by rfl
  labels_eq : t.labels = s.labels := by rfl
  faultKind_eq : t.faultKind = s.faultKind := by rfl
  os_replaced : Replaces s.os t.os (stackEffect s.depth i).pops (stackEffect s.depth i).pushes := by
    exact replaces_none _
  pc_target : IsTarget s t.pc := by exact .inl rfl
  cs_written : t.cs = s.cs ∨
    ((∃ id, i = .call id) ∧ ¬ CsFull s ∧ t.cs = s.cs ++ [s.pc + 1]) ∨
    ((i = .ret ∨ ∃ k, i = .retV k) ∧ t.cs = s.cs.dropLast) := by exact .inl rfl
  mem_written : t.mem = s.mem ∨
    (((∃ a, i = .store a) ∨ (∃ n, i = .alloc n) ∨ ∃ a, i = .free a) ∧ (s.mem.wf → t.mem.wf)) := by exact .inl rfl
  pending_written : t.pending = s.pending ∨ (i = .read ∧ t.pending = .numeric) ∨ (i = .scan ∧ t.pending = .line) := by
    exact .inl rfl
  trace_written : t.trace = s.trace ∨ ∃ f, i = .trace f := by exact .inl rfl
  out_written : t.out = s.out ∨ ((i = .print ∨ (∃ m, i = .write m) ∨ i = .dump) ∧ ∃ e, t.out = s.out ++ [e]) := by
    exact .inl rfl

/-- An instruction that neither removes nor adds an element. -/
theorem Commits.os_eq (h : Commits i s t)
    (heffect : (stackEffect s.depth i).pops = 0 ∧ (stackEffect s.depth i).pushes = 0) :
    t.os = s.os := by
  obtain ⟨hpops, hpushes⟩ := heffect
  have hos := h.os_replaced
  rw [hpops, hpushes] at hos
  exact hos.eq_of_none

/-! ### The tests -/

/-- The label an instruction looks up. -/
def labelOperand : Instr → Option Word
  | .jump id | .brt id | .brz id | .call id => some id
  | _ => none

/-- The test of each fault that an instruction can raise (60_exceptions.md R201). -/
def Blocked (i : Instr) (s : State) : FaultKind → Prop
  | .stackUnderflow => s.depth < (stackEffect s.depth i).need
  | .stackOverflow => s.stackFull = true
  | .arithmeticError => (s.peek 0).toInt = 0
  | .unknownLabel => ∃ id, labelOperand i = some id ∧ s.lookup id = none
  | .callStackUnderflow => s.cdepth = 0
  | .callStackOverflow => s.callStackFull = true
  | .none | .duplicateLabel | .inputParseError | .illegalInstruction => False

/-- The answer `r` is that of the tests in turn: the first one that finds its fault raises it, and behind the last one
the instruction commits. -/
def Answers (i : Instr) (s : State) (r : Result) : List FaultKind → Prop
  | [] => ∃ t, r = .next t ∧ Commits i s t
  | k :: ks => (Blocked i s k ∧ r = fail s k) ∨ (¬ Blocked i s k ∧ Answers i s r ks)

theorem answers_commit (h : Commits i s t) : Answers i s (.next t) [] := ⟨t, rfl, h⟩

theorem answers_guard {c : Prop} [Decidable c] (hc : c ↔ Blocked i s k) (hb : ¬ c → Answers i s b ks) :
    Answers i s (if c then fail s k else b) (k :: ks) := by
  split_ifs with h
  · exact .inl ⟨hc.mp h, rfl⟩
  · exact .inr ⟨h ∘ hc.mpr, hb h⟩

/-- The order of the tests aside: one of them finds its fault, or none does. -/
theorem Answers.cases (h : Answers i s r ks) :
    (∃ k ∈ ks, Blocked i s k ∧ r = fail s k) ∨ ((∀ k ∈ ks, ¬ Blocked i s k) ∧ ∃ t, r = .next t ∧ Commits i s t) := by
  induction ks with
  | nil => exact .inr ⟨nofun, h⟩
  | cons k ks ih =>
    rcases h with ⟨hk, hr⟩ | ⟨hk, h⟩
    · exact .inl ⟨k, List.mem_cons_self, hk, hr⟩
    · rcases ih h with ⟨k', hk', hblocked⟩ | ⟨hnone, hcommits⟩
      · exact .inl ⟨k', List.mem_cons_of_mem _ hk', hblocked⟩
      · exact .inr ⟨List.forall_mem_cons.mpr ⟨hk, hnone⟩, hcommits⟩

/-- A fault is raised where its own test alone finds one. -/
theorem Answers.eq_fail (h : Answers i s r ks) (hk : k ∈ ks) (hblocked : Blocked i s k)
    (hothers : ∀ k' ∈ ks, k' ≠ k → ¬ Blocked i s k') : r = fail s k := by
  rcases h.cases with ⟨k', hk', hblocked', hr⟩ | ⟨hnone, _⟩
  · by_cases heq : k' = k
    · exact heq ▸ hr
    · exact absurd hblocked' (hothers k' hk' heq)
  · exact absurd hblocked (hnone k hk)

/-! ### The operand forms -/

theorem answers_binary (f : Word → Word → Word) (heffect : stackEffect s.depth i = ⟨2, 2, 1, false⟩) :
    Answers i s (binary f s) [.stackUnderflow] := by
  refine answers_guard (by rw [Blocked, heffect]) fun h => answers_commit { os_replaced := ?_ }
  rw [heffect]
  exact (replaces_drop (not_lt.mp h)).push _

theorem answers_dividing (f : Word → Word → Word) (heffect : stackEffect s.depth i = ⟨2, 2, 1, false⟩) :
    Answers i s (dividing f s) [.stackUnderflow, .arithmeticError] := by
  refine answers_guard (by rw [Blocked, heffect]) fun h =>
    answers_guard Iff.rfl fun _ => answers_commit { os_replaced := ?_ }
  rw [heffect]
  exact (replaces_drop (not_lt.mp h)).push _

theorem answers_unary (f : Word → Word) (heffect : stackEffect s.depth i = ⟨1, 1, 1, false⟩) :
    Answers i s (unary f s) [.stackUnderflow] := by
  refine answers_guard (by rw [Blocked, heffect]) fun h => answers_commit { os_replaced := ?_ }
  rw [heffect]
  exact (replaces_drop (not_lt.mp h)).push _

theorem answers_pushing (v : Word) (heffect : stackEffect s.depth i = ⟨0, 0, 1, true⟩) :
    Answers i s (pushing v s) [.stackOverflow] := by
  refine answers_guard Iff.rfl fun _ => answers_commit { os_replaced := ?_ }
  rw [heffect]
  exact (replaces_none _).push v

theorem answers_branch (fires : Word → Bool) {id : Word} (heffect : stackEffect s.depth i = ⟨1, 1, 0, false⟩)
    (hlabel : labelOperand i = some id) :
    Answers i s (branch fires id s) [.stackUnderflow, .unknownLabel] := by
  have hneed : Blocked i s .stackUnderflow ↔ s.os.length < 1 := by rw [Blocked, heffect, State.depth_eq]
  rcases branch_cases fires id s with ⟨hshort, hr⟩ | ⟨below, v, hos, ⟨hnone, hr⟩ | ⟨target, hsome, hr⟩⟩
  · exact .inl ⟨hneed.mpr hshort, hr⟩
  · exact .inr ⟨by simp [hneed, hos], .inl ⟨⟨id, hlabel, hnone⟩, hr⟩⟩
  · refine .inr ⟨by simp [hneed, hos], .inr ⟨by simp [Blocked, hlabel, hsome], _, hr, ?_⟩⟩
    refine { os_replaced := ?_, pc_target := ?_ }
    · rw [heffect]
      exact ⟨below, [v], [], hos, (List.append_nil below).symm, rfl, rfl⟩
    · split_ifs
      · exact .inr (.inl ⟨id, hsome⟩)
      · exact .inl rfl

/-! ### The instructions -/

theorem answers_exec_jump (id : Word) (s : State) : Answers (.jump id) s (exec (.jump id) s) [.unknownLabel] := by
  cases hlookup : s.lookup id with
  | none => exact .inl ⟨⟨id, rfl, hlookup⟩, exec_jump_of_unknown hlookup⟩
  | some target =>
    exact .inr ⟨by simp [Blocked, labelOperand, hlookup], _, exec_jump_of_label hlookup,
      { pc_target := .inr (.inl ⟨id, hlookup⟩) }⟩

theorem answers_exec_call (id : Word) (s : State) :
    Answers (.call id) s (exec (.call id) s) [.unknownLabel, .callStackOverflow] := by
  cases hlookup : s.lookup id with
  | none => exact .inl ⟨⟨id, rfl, hlookup⟩, exec_call_of_unknown hlookup⟩
  | some target =>
    refine .inr ⟨by simp [Blocked, labelOperand, hlookup], ?_⟩
    rw [exec_call_of_label hlookup]
    refine answers_guard Iff.rfl fun hroom => answers_commit
      { pc_target := .inr (.inl ⟨id, hlookup⟩)
        cs_written := .inr (.inl ⟨⟨id, rfl⟩, hroom ∘ State.callStackFull_iff.mpr, rfl⟩) }

theorem State.ctop_mem (h : ¬ s.cdepth = 0) : s.ctop ∈ s.cs := by
  have hcs : s.cs ≠ [] := fun hnil => h (by rw [State.cdepth_eq, hnil, List.length_nil])
  rw [State.ctop, List.getLastD_eq_getLast?, List.getLast?_eq_getLast_of_ne_nil hcs]
  exact List.getLast_mem hcs

/-- `Ret` and `RetV` go to the top of the call stack and pop it. -/
theorem answers_exec_ret (s : State) : Answers .ret s (exec .ret s) [.callStackUnderflow] :=
  answers_guard Iff.rfl fun h => answers_commit
    { pc_target := .inr (.inr (.inl (State.ctop_mem h)))
      cs_written := .inr (.inr ⟨.inl rfl, rfl⟩) }

theorem answers_exec_retV (k : Word) (s : State) :
    Answers (.retV k) s (exec (.retV k) s) [.callStackUnderflow, .stackOverflow] :=
  answers_guard Iff.rfl fun h => answers_guard Iff.rfl fun _ => answers_commit
    { os_replaced := (replaces_none _).push k
      pc_target := .inr (.inr (.inl (State.ctop_mem h)))
      cs_written := .inr (.inr ⟨.inr ⟨k, rfl⟩, rfl⟩) }

/-- Every instruction makes the tests of its row of the fault table in their order, and then commits. -/
theorem answers_exec (i : Instr) (s : State) : Answers i s (exec i s) (faultsOf i) := by
  cases i with
  | push k => exact answers_pushing k rfl
  | load a => exact answers_pushing (s.memRead a) rfl
  | add | sub | mul | eq | ne | le | ge | lt | gt | and | or | xor | shl | shr => exact answers_binary _ rfl
  | div | rem => exact answers_dividing _ rfl
  | neg | inc | dec | not | bool => exact answers_unary _ rfl
  | brt id => exact answers_branch truthOf rfl rfl
  | brz id => exact answers_branch (fun v => !truthOf v) rfl rfl
  | jump id => exact answers_exec_jump id s
  | call id => exact answers_exec_call id s
  | ret => exact answers_exec_ret s
  | retV k => exact answers_exec_retV k s
  | pop => exact answers_guard Iff.rfl fun h => answers_commit { os_replaced := replaces_drop (not_lt.mp h) }
  | dup =>
    exact answers_guard Iff.rfl fun _ => answers_guard Iff.rfl fun _ => answers_commit
      { os_replaced := (replaces_none _).push _ }
  | swap =>
    exact answers_guard Iff.rfl fun h => answers_commit
      { os_replaced := ((replaces_drop (not_lt.mp h)).push _).push _ }
  | rot =>
    exact answers_guard Iff.rfl fun h => answers_commit
      { os_replaced := (((replaces_drop (not_lt.mp h)).push _).push _).push _ }
  | clear => exact answers_commit { os_replaced := replaces_drop le_rfl }
  | store a =>
    exact answers_guard Iff.rfl fun h => answers_commit
      { os_replaced := replaces_drop (not_lt.mp h)
        mem_written := .inr ⟨.inl ⟨a, rfl⟩, State.memWrite_wf (s.drop 1) a _⟩ }
  | alloc n => exact answers_commit { mem_written := .inr ⟨.inr (.inl ⟨n, rfl⟩), State.memAlloc_wf s n⟩ }
  | free a => exact answers_commit { mem_written := .inr ⟨.inr (.inr ⟨a, rfl⟩), State.memFree_wf s a⟩ }
  | print =>
    rw [exec_print]
    split_ifs
    · exact answers_commit { out_written := .inr ⟨.inl rfl, _, rfl⟩ }
    · exact answers_commit { out_written := .inr ⟨.inl rfl, _, rfl⟩ }
  | write m => exact answers_commit { out_written := .inr ⟨.inr (.inl ⟨m, rfl⟩), _, rfl⟩ }
  | dump => exact answers_commit { out_written := .inr ⟨.inr (.inr rfl), _, rfl⟩ }
  | read => exact answers_guard Iff.rfl fun _ => answers_commit { pending_written := .inr (.inl ⟨rfl, rfl⟩) }
  | scan => exact answers_commit { pending_written := .inr (.inr ⟨rfl, rfl⟩) }
  | label id => exact answers_commit {}
  | halt => exact answers_commit { pc_target := .inr (.inr (.inr rfl)) }
  | trace f => exact answers_commit { trace_written := .inr ⟨f, rfl⟩ }

/-- An instruction raises a fault of its row, whose test finds one, or commits, no test of its row finding one. -/
theorem exec_cases (i : Instr) (s : State) :
    (∃ k ∈ faultsOf i, Blocked i s k ∧ exec i s = fail s k) ∨
    ((∀ k ∈ faultsOf i, ¬ Blocked i s k) ∧ ∃ t, exec i s = .next t ∧ Commits i s t) :=
  (answers_exec i s).cases

theorem exec_eq_next_cases (h : exec i s = .next t) :
    (∃ k ∈ faultsOf i, Blocked i s k ∧ t = s.raise k) ∨ ((∀ k ∈ faultsOf i, ¬ Blocked i s k) ∧ Commits i s t) := by
  rcases exec_cases i s with ⟨k, hk, hblocked, hfail⟩ | ⟨hnone, u, hnext, hcommits⟩
  · exact .inl ⟨k, hk, hblocked, Host.Outcome.next.inj (h.symm.trans hfail)⟩
  · exact .inr ⟨hnone, Host.Outcome.next.inj (h.symm.trans hnext) ▸ hcommits⟩

/-! ### The two tables agree: which rows test the depth and which test the room -/

theorem stackUnderflow_mem_faultsOf (i : Instr) (d : Nat) :
    .stackUnderflow ∈ faultsOf i ↔ 0 < (stackEffect d i).need := by
  cases i <;> simp [faultsOf, stackEffect]

theorem stackOverflow_mem_faultsOf (i : Instr) (d : Nat) :
    .stackOverflow ∈ faultsOf i ↔ (stackEffect d i).room = true := by
  cases i <;> simp [faultsOf, stackEffect]

/-- An instruction adds at most what it removes, but for one with room, which adds at most one more. -/
theorem stackEffect_pushes_le (i : Instr) (d : Nat) :
    (stackEffect d i).pushes ≤ (stackEffect d i).pops ∨
    ((stackEffect d i).room = true ∧ (stackEffect d i).pushes ≤ (stackEffect d i).pops + 1) := by
  cases i <;> simp [stackEffect]

theorem exists_faultsOf_eq_cons (i : Instr) {d : Nat} (h : 0 < (stackEffect d i).need) :
    ∃ ks, faultsOf i = .stackUnderflow :: ks := by
  cases i <;> simp_all [faultsOf, stackEffect]

/-- The other tests of a row with room. -/
theorem mem_faultsOf_of_room {d : Nat} (hroom : (stackEffect d i).room = true) (h : k ∈ faultsOf i) :
    (k = .callStackUnderflow ∧ ∃ v, i = .retV v) ∨ k = .stackUnderflow ∨ k = .stackOverflow := by
  cases i with
  | retV v =>
    have hrow : k = .callStackUnderflow ∨ k = .stackOverflow := by simpa [faultsOf] using h
    exact hrow.imp (⟨·, v, rfl⟩) .inr
  | _ => simp_all [faultsOf, stackEffect]

/-! ### The faults of an instruction, from the table -/

/-- The depth is tested first. -/
theorem exec_of_underflow (h : s.os.length < (stackEffect s.os.length i).need) : exec i s = fail s .stackUnderflow := by
  obtain ⟨ks, hks⟩ := exists_faultsOf_eq_cons i (Nat.zero_lt_of_lt h)
  have hanswers := answers_exec i s
  rw [hks] at hanswers
  rcases hanswers with ⟨_, hfail⟩ | ⟨hdeep, _⟩
  · exact hfail
  · exact absurd h hdeep

theorem exec_of_overflow (hroom : (stackEffect s.os.length i).room = true) (hfull : OsFull s)
    (hneed : (stackEffect s.os.length i).need ≤ s.os.length) (hcs : (∃ v, i = .retV v) → s.cs ≠ []) :
    exec i s = fail s .stackOverflow := by
  refine (answers_exec i s).eq_fail ((stackOverflow_mem_faultsOf i _).mpr hroom) (State.stackFull_iff.mpr hfull) ?_
  intro k hk hne
  rcases mem_faultsOf_of_room hroom hk with ⟨rfl, hretV⟩ | rfl | rfl
  · exact mt List.length_eq_zero_iff.mp (hcs hretV)
  · exact not_lt.mpr hneed
  · exact absurd rfl hne

theorem not_stackUnderflow_of_need (hneed : (stackEffect s.os.length i).need ≤ s.os.length)
    (hnone : s.faultKind = .none) (h : exec i s = .next t) : t.faultKind ≠ .stackUnderflow := by
  rcases exec_eq_next_cases h with ⟨k, _, hblocked, rfl⟩ | ⟨_, hcommits⟩
  · rintro rfl
    exact absurd hneed (not_le.mpr hblocked)
  · rw [hcommits.faultKind_eq, hnone]
    nofun

theorem mem_faultsOf_of_exec (hnone : s.faultKind = .none) (h : exec i s = .next t) (hfault : t.faultKind ≠ .none) :
    t.faultKind ∈ faultsOf i := by
  rcases exec_eq_next_cases h with ⟨k, hk, _, rfl⟩ | ⟨_, hcommits⟩
  · exact hk
  · exact absurd (hcommits.faultKind_eq.trans hnone) hfault

/-- A fault-free answer from a fault-free state is a commit, since the fault a test raises has a kind. -/
theorem commits_of_exec (h : exec i s = .next t) (hfault : t.faultKind = .none) :
    (∀ k ∈ faultsOf i, ¬ Blocked i s k) ∧ Commits i s t := by
  rcases exec_eq_next_cases h with ⟨k, _, hblocked, rfl⟩ | hcommits
  · rw [State.raise_faultKind] at hfault
    subst hfault
    exact hblocked.elim
  · exact hcommits

/-! ### Each fault of the table is raised at some state -/

/-- A fault-free state with the parameters, the two stacks and the Label Table given. -/
def stateOf (cfg : Config) (os : List Word) (cs : List Index) (labels : LabelTable) : State :=
  { State.resetOf cfg with os := os, cs := cs, labels := labels }

/-- A row with room needs at most one element. -/
theorem need_le_one_of_room {d : Nat} (h : (stackEffect d i).room = true) : (stackEffect d i).need ≤ 1 := by
  cases i <;> simp_all [stackEffect]

theorem arithmeticError_mem_faultsOf (h : .arithmeticError ∈ faultsOf i) : i = .div ∨ i = .rem := by
  cases i <;> simp_all [faultsOf]

theorem unknownLabel_mem_faultsOf (h : .unknownLabel ∈ faultsOf i) :
    ∃ id, i = .jump id ∨ i = .brt id ∨ i = .brz id ∨ i = .call id := by
  cases i <;> simp_all [faultsOf]

theorem callStackUnderflow_mem_faultsOf (h : .callStackUnderflow ∈ faultsOf i) : i = .ret ∨ ∃ k, i = .retV k := by
  cases i <;> simp_all [faultsOf]

theorem callStackOverflow_mem_faultsOf (h : .callStackOverflow ∈ faultsOf i) : ∃ id, i = .call id := by
  cases i <;> simp_all [faultsOf]

/-- The states: empty stacks for an underflow, full ones for an overflow, a zero divisor, an empty Label Table. -/
theorem exists_raises (i : Instr) (h : k ∈ faultsOf i) : ∃ s : State, s.faultKind = .none ∧ RaisesAt i s k := by
  cases k with
  | stackUnderflow => exact ⟨State.reset, rfl, exec_of_underflow ((stackUnderflow_mem_faultsOf i 0).mp h)⟩
  | stackOverflow =>
    have hroom := (stackOverflow_mem_faultsOf i 1).mp h
    exact ⟨stateOf ⟨.finite 1, .inf, 0⟩ [0] [0] [], rfl,
      exec_of_overflow hroom rfl (need_le_one_of_room hroom) fun _ => List.cons_ne_nil _ _⟩
  | arithmeticError =>
    have hos : (stateOf .document [0, 0] [] []).os = [] ++ [0, 0] := rfl
    refine ⟨stateOf .document [0, 0] [] [], rfl, ?_⟩
    rcases arithmeticError_mem_faultsOf h with rfl | rfl
    · exact (dividing_of_two aluDiv hos).1 rfl
    · exact (dividing_of_two aluRem hos).1 rfl
  | unknownLabel =>
    have hos : (stateOf .document [0] [] []).os = [] ++ [0] := rfl
    refine ⟨stateOf .document [0] [] [], rfl, ?_⟩
    rcases unknownLabel_mem_faultsOf h with ⟨id, rfl | rfl | rfl | rfl⟩
    · exact exec_jump_of_unknown rfl
    · exact branch_of_unknown (id := id) truthOf hos rfl
    · exact branch_of_unknown (id := id) (fun v => !truthOf v) hos rfl
    · exact exec_call_of_unknown rfl
  | callStackUnderflow =>
    refine ⟨State.reset, rfl, ?_⟩
    rcases callStackUnderflow_mem_faultsOf h with rfl | ⟨v, rfl⟩
    · exact exec_ret_of_nil rfl
    · exact exec_retV_of_nil rfl v
  | callStackOverflow =>
    obtain ⟨id, rfl⟩ := callStackOverflow_mem_faultsOf h
    exact ⟨stateOf ⟨.inf, .finite 0, 0⟩ [] [] [(id, 0)], rfl, exec_call_of_full (if_pos rfl) rfl⟩
  | none | duplicateLabel | inputParseError | illegalInstruction => cases i <;> simp [faultsOf] at h

/-! ### The obligations -/

/-- Settles O46: a fault that an instruction records is one that a test of its row raised; and for each fault of a row a
state where its test alone finds one. -/
theorem eachInstructionRaisesExactlyItsFaults : Obligations.EachInstructionRaisesExactlyItsFaults :=
  ⟨fun _ _ _ => mem_faultsOf_of_exec, fun i _ => exists_raises i⟩

/-- Settles O48: the tests of the depth and of the room, and the stack that a commit leaves. -/
theorem stackEffectsAreThoseOfTheTable : Obligations.StackEffectsAreThoseOfTheTable := by
  refine fun i s => ⟨exec_of_underflow, fun t hnone hexec hfault => ?_, fun hneed t => not_stackUnderflow_of_need hneed,
    exec_of_overflow, fun hroom t hnone hexec hfault => ?_⟩
  · obtain ⟨hpassed, hcommits⟩ := commits_of_exec hexec hfault
    refine ⟨?_, fun hroom hfull => ?_, hcommits.os_replaced.length_eq, hcommits.os_replaced.take_eq⟩
    · by_contra hshort
      have hneed := Nat.zero_lt_of_lt (not_le.mp hshort)
      exact hpassed _ ((stackUnderflow_mem_faultsOf i _).mpr hneed) (not_le.mp hshort)
    · exact hpassed _ ((stackOverflow_mem_faultsOf i _).mpr hroom) (State.stackFull_iff.mpr hfull)
  · have hmem := mem_faultsOf_of_exec hnone hexec (by rw [hfault]; nofun)
    rw [hfault, stackOverflow_mem_faultsOf i s.os.length, hroom] at hmem
    cases hmem

/-- Settles O49: a fault writes the fault pair only, a commit its instruction's own elements. -/
theorem eachElementHasItsOnlyWriters : Obligations.EachElementHasItsOnlyWriters := by
  intro i s t hexec
  rcases exec_eq_next_cases hexec with ⟨k, _, _, rfl⟩ | ⟨_, hcommits⟩
  · simp
  · refine ⟨hcommits.cfg_eq, hcommits.prog_eq, hcommits.labels_eq, fun hcs => ?_, fun hmem => ?_, fun hpending => ?_,
      fun htrace => ?_, fun hout => ?_, fun hi => hcommits.os_eq ?_⟩
    · rcases hcommits.cs_written with heq | ⟨hcall, _⟩ | ⟨hret, _⟩
      · exact absurd heq hcs
      · exact .inl hcall
      · exact .inr hret
    · exact (hcommits.mem_written.resolve_left hmem).1
    · exact (hcommits.pending_written.resolve_left hpending).imp And.left And.left
    · exact hcommits.trace_written.resolve_left htrace
    · exact (hcommits.out_written.resolve_left hout).1
    · rcases hi with ⟨_, rfl⟩ | ⟨_, rfl⟩ | rfl | ⟨_, rfl⟩ | rfl | ⟨_, rfl⟩ | ⟨_, rfl⟩ | ⟨_, rfl⟩ | rfl | ⟨_, rfl⟩ |
        rfl | rfl | rfl
      all_goals exact ⟨rfl, rfl⟩

end Sys2Proof.Machine
end

section
/-! PROOFS. The load-time scan for labels (70_reset_and_hazards.md R232, R233), said for a program that grows at its
end: what the table holds, which marker is the first repeated one, and when there is none. -/

namespace Sys2Proof.Machine

variable {p ws : List InstrWord} {w : InstrWord} {id : Word} {j : Nat}

/-! ### Markers -/

/-- A marker is the word of the label its operand field names. -/
theorem eq_encode_label_of_opcode (h : opcodeOf w = 0x46#8) : w = encode (.label (operandOf w)) := by
  conv_lhs => rw [← mkWord_opcodeOf_operandOf w, h]
  rfl

theorem opcodeOf_encode_label (id : Word) : opcodeOf (encode (.label id)) = 0x46#8 := opcodeOf_mkWord _ _

theorem operandOf_encode_label (id : Word) : operandOf (encode (.label id)) = id := operandOf_mkWord _ _

theorem encode_label_inj {id id' : Word} : encode (.label id) = encode (.label id') ↔ id = id' :=
  mkWord_inj.trans (and_iff_right rfl)

/-! ### The Label Table -/

theorem LabelTable.find_append (lt lt' : LabelTable) (id : Word) :
    LabelTable.find (lt ++ lt') id = (LabelTable.find lt id).or (LabelTable.find lt' id) := by
  induction lt with
  | nil => rfl
  | cons e lt ih =>
    obtain ⟨k, i⟩ := e
    rw [List.cons_append, LabelTable.find, LabelTable.find, ih]
    split_ifs <;> rfl

/-! ### The scan of a program that grows at its end -/

/-- The scan of a program's rest, after a part in which it met no duplicate. -/
theorem scanLabels_append (i : Nat) (lt : LabelTable) (p ws : List InstrWord) :
    scanLabels i lt (p ++ ws) =
      if (scanLabels i lt p).2 = none then scanLabels (i + p.length) (scanLabels i lt p).1 ws
      else scanLabels i lt p := by
  induction p generalizing i lt with
  | nil => rfl
  | cons w p ih =>
    simp only [List.cons_append, scanLabels, List.length_cons, ← Nat.add_assoc, Nat.add_right_comm i p.length 1]
    split_ifs <;> simp_all

theorem resolveLabels_append (p ws : List InstrWord) :
    resolveLabels (p ++ ws) =
      if (resolveLabels p).2 = none then scanLabels p.length (resolveLabels p).1 ws else resolveLabels p := by
  have happend := scanLabels_append 0 [] p ws
  rwa [Nat.zero_add] at happend

theorem resolveLabels_append_of_some (h : (resolveLabels p).2 = some j) (ws : List InstrWord) :
    resolveLabels (p ++ ws) = resolveLabels p := by
  rw [resolveLabels_append, h, if_neg (Option.some_ne_none j)]

theorem resolveLabels_snoc_of_none (h : (resolveLabels p).2 = none) (w : InstrWord) :
    resolveLabels (p ++ [w]) = scanLabels p.length (resolveLabels p).1 [w] := by
  rw [resolveLabels_append, if_pos h]

theorem resolveLabels_snoc_of_other (h : (resolveLabels p).2 = none) (hw : opcodeOf w ≠ 0x46#8) :
    resolveLabels (p ++ [w]) = ((resolveLabels p).1, none) := by
  rw [resolveLabels_snoc_of_none h, scanLabels, if_neg hw, scanLabels]

theorem resolveLabels_snoc_of_repeated (h : (resolveLabels p).2 = none)
    (hid : (LabelTable.find (resolveLabels p).1 id).isSome) :
    resolveLabels (p ++ [encode (.label id)]) = ((resolveLabels p).1, some p.length) := by
  rw [resolveLabels_snoc_of_none h, scanLabels, if_pos (opcodeOf_encode_label id), operandOf_encode_label, if_pos hid]

theorem resolveLabels_snoc_of_new (h : (resolveLabels p).2 = none)
    (hid : LabelTable.find (resolveLabels p).1 id = none) :
    resolveLabels (p ++ [encode (.label id)]) = ((resolveLabels p).1 ++ [(id, BitVec.ofNat 32 p.length)], none) := by
  rw [resolveLabels_snoc_of_none h, scanLabels, if_pos (opcodeOf_encode_label id), operandOf_encode_label, hid]
  rfl

/-- The last word of a program that the scan ends without a duplicate: no marker, or one of an identifier the table does
not have yet. -/
theorem resolveLabels_snoc_none_cases (h : (resolveLabels (p ++ [w])).2 = none) :
    (resolveLabels p).2 = none ∧
    ((opcodeOf w ≠ 0x46#8 ∧ (resolveLabels (p ++ [w])).1 = (resolveLabels p).1) ∨
     ∃ id, w = encode (.label id) ∧ LabelTable.find (resolveLabels p).1 id = none ∧
       (resolveLabels (p ++ [w])).1 = (resolveLabels p).1 ++ [(id, BitVec.ofNat 32 p.length)]) := by
  cases hp : (resolveLabels p).2 with
  | some j =>
    rw [resolveLabels_append_of_some hp, hp] at h
    cases h
  | none =>
    refine ⟨rfl, ?_⟩
    by_cases hw : opcodeOf w = 0x46#8
    · obtain ⟨id, rfl⟩ : ∃ id, w = encode (.label id) := ⟨_, eq_encode_label_of_opcode hw⟩
      cases hfind : LabelTable.find (resolveLabels p).1 id with
      | none => exact .inr ⟨id, rfl, hfind, by rw [resolveLabels_snoc_of_new hp hfind]⟩
      | some i =>
        rw [resolveLabels_snoc_of_repeated hp (by rw [hfind]; rfl)] at h
        cases h
    · exact .inl ⟨hw, by rw [resolveLabels_snoc_of_other hp hw]⟩

/-- A scan that ends with a duplicate met it in the program before the last word, or at the last word, a marker of an
identifier the table has. -/
theorem resolveLabels_snoc_some_cases (h : (resolveLabels (p ++ [w])).2 = some j) :
    (resolveLabels (p ++ [w])).1 = (resolveLabels p).1 ∧
    ((resolveLabels p).2 = some j ∨
     ((resolveLabels p).2 = none ∧ j = p.length ∧
       ∃ id i, w = encode (.label id) ∧ LabelTable.find (resolveLabels p).1 id = some i)) := by
  cases hp : (resolveLabels p).2 with
  | some k =>
    rw [resolveLabels_append_of_some hp] at h ⊢
    exact ⟨rfl, .inl (hp.symm.trans h)⟩
  | none =>
    by_cases hw : opcodeOf w = 0x46#8
    · obtain ⟨id, rfl⟩ : ∃ id, w = encode (.label id) := ⟨_, eq_encode_label_of_opcode hw⟩
      cases hfind : LabelTable.find (resolveLabels p).1 id with
      | none =>
        rw [resolveLabels_snoc_of_new hp hfind] at h
        cases h
      | some i =>
        rw [resolveLabels_snoc_of_repeated hp (by rw [hfind]; rfl)] at h ⊢
        exact ⟨rfl, .inr ⟨rfl, (Option.some.inj h).symm, id, i, rfl, hfind⟩⟩
    · rw [resolveLabels_snoc_of_other hp hw] at h
      cases h

/-! ### What the table holds (70_reset_and_hazards.md R232) -/

theorem getElem?_snoc_eq_some_iff {n : Nat} {v : InstrWord} :
    (p ++ [w])[n]? = some v ↔ p[n]? = some v ∨ (n = p.length ∧ w = v) := by
  rcases lt_trichotomy n p.length with h | rfl | h
  · simp [List.getElem?_append_left h, h.ne]
  · simp
  · have hbeyond : (p ++ [w]).length ≤ n := by
      rw [List.length_append]
      exact h
    simp [List.getElem?_eq_none hbeyond, List.getElem?_eq_none h.le, h.ne']

/-- Without a duplicate the table has, under each identifier, the index of the marker that carries it. -/
theorem find_resolveLabels_eq_some_iff (h : (resolveLabels p).2 = none) (id : Word) (i : Index) :
    LabelTable.find (resolveLabels p).1 id = some i ↔
      ∃ n, p[n]? = some (encode (.label id)) ∧ i = BitVec.ofNat 32 n := by
  induction p using List.reverseRecOn generalizing i with
  | nil => simp [resolveLabels, scanLabels, LabelTable.find]
  | append_singleton p w ih =>
    simp only [getElem?_snoc_eq_some_iff]
    obtain ⟨hp, ⟨hw, htable⟩ | ⟨id', rfl, hnew, htable⟩⟩ := resolveLabels_snoc_none_cases h
    · have hother : w ≠ encode (.label id) := fun heq => hw (heq ▸ opcodeOf_encode_label id)
      rw [htable, ih hp i]
      simp [hother]
    · rw [htable, LabelTable.find_append, LabelTable.find, LabelTable.find, encode_label_inj]
      by_cases hid : id' = id
      · subst hid
        have habsent : ∀ n, p[n]? ≠ some (encode (.label id')) := fun n hn => by
          simpa [hnew] using (ih hp _).mpr ⟨n, hn, rfl⟩
        simp [hnew, habsent, eq_comm]
      · rw [if_neg hid, Option.or_none, ih hp i]
        simp [hid]

/-! ### Repeated markers (70_reset_and_hazards.md R233) -/

theorem repeatsMarker_snoc_iff :
    RepeatsMarker (p ++ [w]) j ↔
      RepeatsMarker p j ∨
        (j = p.length ∧ ∃ id, ∃ i : Nat, w = encode (.label id) ∧ p[i]? = some (encode (.label id))) := by
  constructor
  · rintro ⟨id, hj, i, hij, hi⟩
    rcases getElem?_snoc_eq_some_iff.mp hj with hj | ⟨rfl, hw⟩
    · obtain ⟨hlt, _⟩ := List.getElem?_eq_some_iff.mp hj
      rcases getElem?_snoc_eq_some_iff.mp hi with hi | ⟨rfl, _⟩
      · exact .inl ⟨id, hj, i, hij, hi⟩
      · omega
    · rcases getElem?_snoc_eq_some_iff.mp hi with hi | ⟨rfl, _⟩
      · exact .inr ⟨rfl, id, i, hw, hi⟩
      · omega
  · rintro (⟨id, hj, i, hij, hi⟩ | ⟨rfl, id, i, rfl, hi⟩)
    · exact ⟨id, getElem?_snoc_eq_some_iff.mpr (.inl hj), i, hij, getElem?_snoc_eq_some_iff.mpr (.inl hi)⟩
    · obtain ⟨hlt, _⟩ := List.getElem?_eq_some_iff.mp hi
      exact ⟨id, getElem?_snoc_eq_some_iff.mpr (.inr ⟨rfl, rfl⟩), i, hlt, getElem?_snoc_eq_some_iff.mpr (.inl hi)⟩

theorem RepeatsMarker.lt_length (h : RepeatsMarker p j) : j < p.length := by
  obtain ⟨_, hj, _⟩ := h
  exact (List.getElem?_eq_some_iff.mp hj).1

theorem not_repeatsMarker_of_resolveLabels_none (h : (resolveLabels p).2 = none) (j : Nat) : ¬ RepeatsMarker p j := by
  induction p using List.reverseRecOn with
  | nil =>
    rintro ⟨_, hj, _⟩
    cases hj
  | append_singleton p w ih =>
    obtain ⟨hp, hlast⟩ := resolveLabels_snoc_none_cases h
    rw [repeatsMarker_snoc_iff]
    rintro (hrepeats | ⟨_, id, i, rfl, hi⟩)
    · exact ih hp hrepeats
    · rcases hlast with ⟨hw, _⟩ | ⟨id', hid, hnew, _⟩
      · exact hw (opcodeOf_encode_label id)
      · rw [← encode_label_inj.mp hid, (find_resolveLabels_eq_some_iff hp id _).mpr ⟨i, hi, rfl⟩] at hnew
        cases hnew

/-- The scan stops at the first repeated marker, and until then it is the scan of the program before that marker. -/
theorem resolveLabels_of_duplicate (h : (resolveLabels p).2 = some j) :
    RepeatsMarker p j ∧ (∀ k, k < j → ¬ RepeatsMarker p k) ∧
      (resolveLabels p).1 = (resolveLabels (p.take j)).1 ∧ (resolveLabels (p.take j)).2 = none := by
  induction p using List.reverseRecOn with
  | nil => cases h
  | append_singleton p w ih =>
    obtain ⟨htable, hp | ⟨hp, rfl, id, i, rfl, hfind⟩⟩ := resolveLabels_snoc_some_cases h
    · obtain ⟨hrepeats, hfirst, htake⟩ := ih hp
      have hlt := hrepeats.lt_length
      rw [htable, List.take_append_of_le_length hlt.le]
      refine ⟨repeatsMarker_snoc_iff.mpr (.inl hrepeats), fun k hk hrepeats' => ?_, htake⟩
      rcases repeatsMarker_snoc_iff.mp hrepeats' with hrepeats' | ⟨rfl, _⟩
      · exact hfirst k hk hrepeats'
      · omega
    · obtain ⟨n, hn, _⟩ := (find_resolveLabels_eq_some_iff hp id i).mp hfind
      rw [htable, List.take_left]
      refine ⟨repeatsMarker_snoc_iff.mpr (.inr ⟨rfl, id, n, rfl, hn⟩), fun k hk hrepeats' => ?_, rfl, hp⟩
      rcases repeatsMarker_snoc_iff.mp hrepeats' with hrepeats' | ⟨rfl, _⟩
      · exact not_repeatsMarker_of_resolveLabels_none hp k hrepeats'
      · omega

theorem resolveLabels_eq_none_iff : (resolveLabels p).2 = none ↔ ∀ j, ¬ RepeatsMarker p j := by
  refine ⟨not_repeatsMarker_of_resolveLabels_none, fun h => ?_⟩
  cases hp : (resolveLabels p).2 with
  | none => rfl
  | some j => exact absurd (resolveLabels_of_duplicate hp).1 (h j)

theorem resolveLabels_eq_some_iff :
    (resolveLabels p).2 = some j ↔ RepeatsMarker p j ∧ ∀ k, k < j → ¬ RepeatsMarker p k := by
  constructor
  · intro h
    obtain ⟨hrepeats, hfirst, _⟩ := resolveLabels_of_duplicate h
    exact ⟨hrepeats, hfirst⟩
  · rintro ⟨hrepeats, hfirst⟩
    cases hp : (resolveLabels p).2 with
    | none => exact absurd hrepeats (not_repeatsMarker_of_resolveLabels_none hp j)
    | some k =>
      obtain ⟨hrepeats', hfirst', _⟩ := resolveLabels_of_duplicate hp
      have hjk : ¬ k < j := fun hlt => hfirst k hlt hrepeats'
      have hkj : ¬ j < k := fun hlt => hfirst' j hlt hrepeats
      rw [show k = j by omega]

/-! ### The table of a program that LOAD accepts -/

/-- Below 2^32 an index is its own 32-bit value. -/
theorem exists_index_iff {q : Nat → Prop} (hq : ∀ n, q n → n < 4294967296) (i : Index) :
    (∃ n, q n ∧ i = BitVec.ofNat 32 n) ↔ q i.toNat := by
  constructor
  · rintro ⟨n, hn, rfl⟩
    rwa [BitVec.toNat_ofNat, Nat.mod_eq_of_lt (hq n hn)]
  · exact fun h => ⟨i.toNat, h, (BitVec.ofNat_toNat 32 i).symm⟩

theorem find_resolveLabels_of_no_duplicate (hlength : p.length < 4294967296) (h : (resolveLabels p).2 = none)
    (id : Word) (i : Index) :
    LabelTable.find (resolveLabels p).1 id = some i ↔ p[i.toNat]? = some (encode (.label id)) := by
  rw [find_resolveLabels_eq_some_iff h, exists_index_iff]
  intro n hn
  exact (List.getElem?_eq_some_iff.mp hn).1.trans hlength

theorem find_resolveLabels_of_duplicate (hlength : p.length < 4294967296) (h : (resolveLabels p).2 = some j)
    (id : Word) (i : Index) :
    LabelTable.find (resolveLabels p).1 id = some i ↔ i.toNat < j ∧ p[i.toNat]? = some (encode (.label id)) := by
  obtain ⟨_, _, htable, hnone⟩ := resolveLabels_of_duplicate h
  have htake : (p.take j).length < 4294967296 := (List.length_take_le' j p).trans_lt hlength
  rw [htable, find_resolveLabels_of_no_duplicate htake hnone, List.getElem?_take]
  split_ifs with hij <;> simp [hij]

/-- Every value of the table is the index of its marker, with or without a duplicate. -/
theorem getElem?_of_find_resolveLabels {id : Word} {i : Index} (hlength : p.length < 4294967296)
    (h : LabelTable.find (resolveLabels p).1 id = some i) : p[i.toNat]? = some (encode (.label id)) := by
  cases hp : (resolveLabels p).2 with
  | none => exact (find_resolveLabels_of_no_duplicate hlength hp id i).mp h
  | some j => exact ((find_resolveLabels_of_duplicate hlength hp id i).mp h).2

/-! ### The well-formedness check, which reads markers by mask and match (70_reset_and_hazards.md R233) -/

theorem isMarker_iff : (w &&& 0xFF00000000#40 == 0x4600000000#40) = true ↔ ∃ id, w = encode (.label id) := by
  refine (formatPayload_accepts_iff (op := 0x46)).trans ⟨fun h => ⟨_, eq_encode_label_of_opcode h⟩, ?_⟩
  rintro ⟨id, rfl⟩
  exact opcodeOf_encode_label id

theorem setWidth_encode_label (id : Word) : (encode (.label id)).setWidth 32 = id :=
  BitVec.setWidth_append_eq_right

theorem mem_markerIds_iff {id : Word} : id ∈ markerIds p ↔ encode (.label id) ∈ p := by
  simp only [markerIds, List.mem_map, List.mem_filter, isMarker_iff]
  constructor
  · rintro ⟨_, ⟨hw, id', rfl⟩, hid⟩
    rw [setWidth_encode_label] at hid
    exact hid ▸ hw
  · exact fun h => ⟨_, ⟨h, id, rfl⟩, setWidth_encode_label id⟩

theorem markerIds_append (p q : List InstrWord) : markerIds (p ++ q) = markerIds p ++ markerIds q := by
  simp [markerIds]

theorem markerIds_marker (id : Word) : markerIds [encode (.label id)] = [id] := by
  rw [markerIds, List.filter_singleton, isMarker_iff.mpr ⟨id, rfl⟩, cond_true, List.map_singleton,
    setWidth_encode_label]

theorem markerIds_other (h : ¬ ∃ id, w = encode (.label id)) : markerIds [w] = [] := by
  rw [markerIds, List.filter_singleton, eq_false_of_ne_true (h ∘ isMarker_iff.mp), cond_false, List.map_nil]

/-- The check finds two equal identifiers exactly where a marker repeats one. -/
theorem markerIds_nodup_iff : (markerIds p).Nodup ↔ ∀ j, ¬ RepeatsMarker p j := by
  induction p using List.reverseRecOn with
  | nil => exact ⟨fun _ j h => absurd h.lt_length (Nat.not_lt_zero j), fun _ => List.nodup_nil⟩
  | append_singleton p w ih =>
    simp only [repeatsMarker_snoc_iff, not_or, forall_and, ← ih, not_and, forall_eq]
    by_cases hw : ∃ id, w = encode (.label id)
    · obtain ⟨id, rfl⟩ := hw
      rw [markerIds_append, markerIds_marker, List.nodup_append_comm, List.singleton_append, List.nodup_cons, and_comm,
        mem_markerIds_iff, List.mem_iff_getElem?]
      simp [encode_label_inj]
    · rw [markerIds_append, markerIds_other hw, List.append_nil]
      exact (and_iff_left fun ⟨id, i, hid, _⟩ => hw ⟨id, hid⟩).symm

/-! ### LOAD -/

theorem loaded_of_duplicate (h : (resolveLabels p).2 = some j) (s : State) :
    loaded p s = { State.resetOf s.cfg with
      prog := p, labels := (resolveLabels p).1, faultKind := .duplicateLabel, faultPc := BitVec.ofNat 32 j } := by
  simp [loaded, h, resetCommand]

theorem loaded_status_faulted_iff (p : List InstrWord) (s : State) :
    (loaded p s).status = .faulted ↔ (resolveLabels p).2 ≠ none := by
  rw [State.status_faulted_iff]
  cases h : (resolveLabels p).2 with
  | none => simp [loaded_of_no_duplicate h, State.resetOf]
  | some j => simp [loaded_of_duplicate h]

theorem loaded_status_of_no_duplicate (h : (resolveLabels p).2 = none) (s : State) :
    (loaded p s).status = if p = [] then .halted else .ready := by
  rw [loaded_of_no_duplicate h]
  split_ifs with hp
  · exact (State.status_halted_iff _).mpr ⟨rfl, rfl, by simp [State.resetOf, hp]⟩
  · exact (State.status_ready_iff _).mpr ⟨rfl, rfl, fun hpc => hp (List.length_eq_zero_iff.mp hpc.symm)⟩

/-! ### The obligations -/

/-- Settles O53: the table of a program that grows at its end, and at a duplicate the table of the program before it. -/
theorem labelTableHoldsEachMarkersOwnIndex : Obligations.LabelTableHoldsEachMarkersOwnIndex :=
  fun _ hlength id i => ⟨fun h => find_resolveLabels_of_no_duplicate hlength h id i,
    fun _ h => find_resolveLabels_of_duplicate hlength h id i⟩

/-- Settles O54: where the scan stops, and the state that LOAD then leaves. -/
theorem duplicateLabelIsTheFirstRepeatedMarker : Obligations.DuplicateLabelIsTheFirstRepeatedMarker := by
  refine fun p j => ⟨resolveLabels_eq_some_iff, fun h => ?_⟩
  obtain ⟨_, _, htable, hnone⟩ := resolveLabels_of_duplicate h
  refine ⟨htable, hnone, fun s t hload => ?_⟩
  obtain ⟨_, rfl⟩ := command_load_eq_next_iff.mp hload
  have hfaulted : (loaded p s).status = .faulted := (loaded_status_faulted_iff p s).mpr (by rw [h]; nofun)
  have hstep : step (loaded p s) = .next (loaded p s) := step_of_not_ready (by rw [hfaulted]; nofun)
  rw [loaded_of_duplicate h] at hfaulted hstep ⊢
  exact ⟨rfl, rfl, rfl, hfaulted, rfl, rfl, rfl, hstep⟩

/-- Settles O55: both sides say that some marker repeats an identifier. -/
theorem loadFaultsExactlyOnDuplicateMarkers : Obligations.LoadFaultsExactlyOnDuplicateMarkers := by
  intro p s t hload
  obtain ⟨hlength, rfl⟩ := command_load_eq_next_iff.mp hload
  rw [loaded_status_faulted_iff, ne_eq, resolveLabels_eq_none_iff, ← markerIds_nodup_iff]
  simp [WellFormed.program, hlength]

/-- Settles O52: a program that is too long, and the state LOAD leaves for one without and one with a duplicate. -/
theorem loadResetsAndInstallsTheProgram : Obligations.LoadResetsAndInstallsTheProgram := by
  refine fun p s => ⟨fun hlong => ?_, fun hlength => ⟨loaded p s, command_load_eq_next_iff.mpr ⟨hlength, rfl⟩, ?_⟩⟩
  · rw [command, loadCommand, if_neg (not_le.mpr hlong)]
  · cases h : (resolveLabels p).2 with
    | none =>
      have hstatus := loaded_status_of_no_duplicate h s
      rw [loaded_of_no_duplicate h] at hstatus ⊢
      exact ⟨rfl, rfl, rfl, rfl, rfl, rfl, rfl, rfl, rfl, rfl, fun _ => ⟨rfl, rfl, hstatus⟩, nofun⟩
    | some j =>
      have hfaulted := (loaded_status_faulted_iff p s).mpr (by rw [h]; nofun)
      rw [loaded_of_duplicate h] at hfaulted ⊢
      refine ⟨rfl, rfl, rfl, rfl, rfl, rfl, rfl, rfl, rfl, rfl, nofun, fun k hk => ?_⟩
      obtain rfl := Option.some.inj hk
      exact ⟨rfl, rfl, hfaulted⟩

end Sys2Proof.Machine
end

section
/-! PROOFS. The state invariants (10_state.md R35): RESET and LOAD establish them, and STEP, DELIVER and RUN keep
them. With them, what no run changes (10_state.md R33) and that every STEP completes (70_reset_and_hazards.md R244). -/

namespace Sys2Proof.Machine

variable {s t : State} {i : Instr} {n : Nat}

/-! ### Capacities -/

theorem fits_zero (c : Capacity) : fits 0 c := by
  cases c with
  | finite k => exact Nat.zero_le k
  | inf => trivial

theorem fits_of_le {m : Nat} {c : Capacity} (hle : m ≤ n) (h : fits n c) : fits m c := by
  cases c with
  | finite k => exact hle.trans h
  | inf => trivial

/-- Below its capacity a stack has room for one more element. -/
theorem fits_succ {c : Capacity} (h : fits n c) (hroom : c ≠ .finite n) : fits (n + 1) c := by
  cases c with
  | finite k => exact Nat.lt_of_le_of_ne h fun heq => hroom (by rw [heq])
  | inf => trivial

/-! ### What the invariant says of where control can go -/

theorem State.Inv.prog_length_lt (h : s.Inv) : s.prog.length < 4294967296 := h.prog_le.trans_lt s.cfg.maxProgLen.isLt

theorem State.Inv.lookup_eq_some (h : s.Inv) {id : Word} {target : Index} (hlookup : s.lookup id = some target) :
    target.toNat < s.prog.length ∧ s.prog[target.toNat]? = some (encode (.label id)) := by
  rw [State.lookup_eq, h.labels_eq] at hlookup
  have hmarker := getElem?_of_find_resolveLabels h.prog_length_lt hlookup
  exact ⟨(List.getElem?_eq_some_iff.mp hmarker).1, hmarker⟩

/-- In Ready a word stands at PC. -/
theorem State.Inv.pc_lt (h : s.Inv) (hready : s.status = .ready) : s.pc.toNat < s.prog.length :=
  lt_of_le_of_ne h.pc_le ((State.status_ready_iff s).mp hready).2.2

/-- The next index does not wrap around. -/
theorem State.Inv.toNat_next (h : s.Inv) (hready : s.status = .ready) : (s.pc + 1).toNat = s.pc.toNat + 1 := by
  have hpc := h.pc_lt hready
  have hprog := h.prog_length_lt
  rw [BitVec.toNat_add_of_lt]
  · rfl
  · show s.pc.toNat + 1 < 4294967296
    omega

theorem State.Inv.target_le (h : s.Inv) (hready : s.status = .ready) {target : Index} (htarget : IsTarget s target) :
    target.toNat ≤ s.prog.length := by
  rcases htarget with rfl | ⟨id, hlabel⟩ | hreturn | rfl
  · rw [h.toNat_next hready]
    exact h.pc_lt hready
  · exact (h.lookup_eq_some hlabel).1.le
  · exact (h.cs_range target hreturn).2
  · rw [State.progLen, BitVec.toNat_ofNat]
    exact Nat.mod_le _ _

/-! ### A commit keeps the invariant -/

/-- The operand stack grows only where its instruction tested for room, by at most one element. -/
theorem Commits.os_fits (hcommits : Commits i s t) (hpassed : ∀ k ∈ faultsOf i, ¬ Blocked i s k)
    (h : fits s.os.length s.cfg.stackDepth) : fits t.os.length s.cfg.stackDepth := by
  obtain ⟨below, removed, added, hos, hos', hpops, hpushes⟩ := hcommits.os_replaced
  have hlength : s.os.length = below.length + removed.length := by rw [hos, List.length_append]
  have hlength' : t.os.length = below.length + added.length := by rw [hos', List.length_append]
  rcases stackEffect_pushes_le i s.depth with hle | ⟨hroom, hle⟩
  · exact fits_of_le (by omega) h
  · have hnotfull := hpassed _ ((stackOverflow_mem_faultsOf i _).mpr hroom)
    exact fits_of_le (by omega) (fits_succ h (hnotfull ∘ State.stackFull_iff.mpr))

theorem Commits.cs_fits (hcommits : Commits i s t) (h : fits s.cs.length s.cfg.callDepth) :
    fits t.cs.length s.cfg.callDepth := by
  rcases hcommits.cs_written with heq | ⟨_, hroom, heq⟩ | ⟨_, heq⟩
  · exact heq ▸ h
  · rw [heq, List.length_append]
    exact fits_succ h hroom
  · rw [heq, List.length_dropLast]
    exact fits_of_le (Nat.sub_le _ _) h

/-- A return address is the index after a fetched word, so in 1 to `L`. -/
theorem Commits.cs_range (hcommits : Commits i s t) (h : s.Inv) (hready : s.status = .ready) :
    ∀ r ∈ t.cs, 1 ≤ r.toNat ∧ r.toNat ≤ s.prog.length := by
  rcases hcommits.cs_written with heq | ⟨_, _, heq⟩ | ⟨_, heq⟩ <;> rw [heq]
  · exact h.cs_range
  · refine List.forall_mem_append.mpr ⟨h.cs_range, List.forall_mem_singleton.mpr ?_⟩
    rw [h.toNat_next hready]
    exact ⟨Nat.le_add_left 1 _, h.pc_lt hready⟩
  · exact fun r hr => h.cs_range r (List.mem_of_mem_dropLast hr)

/-- A commit that asks for a word is that of `Read`, which tested for the room. -/
theorem Commits.numeric_room (hcommits : Commits i s t) (hpassed : ∀ k ∈ faultsOf i, ¬ Blocked i s k)
    (hnone : s.pending = .none) (h : fits s.os.length s.cfg.stackDepth) (hnumeric : t.pending = .numeric) :
    fits (t.os.length + 1) s.cfg.stackDepth := by
  rcases hcommits.pending_written with heq | ⟨rfl, _⟩ | ⟨_, hline⟩
  · cases hnumeric.symm.trans (heq.trans hnone)
  · rw [hcommits.os_eq ⟨rfl, rfl⟩]
    exact fits_succ h (hpassed .stackOverflow List.mem_cons_self ∘ State.stackFull_iff.mpr)
  · cases hnumeric.symm.trans hline

theorem Commits.inv (hcommits : Commits i s t) (hpassed : ∀ k ∈ faultsOf i, ¬ Blocked i s k) (h : s.Inv)
    (hready : s.status = .ready) : t.Inv := by
  obtain ⟨hnofault, hnorequest, _⟩ := (State.status_ready_iff s).mp hready
  exact {
    pc_le := by rw [hcommits.prog_eq]; exact h.target_le hready hcommits.pc_target
    prog_le := by rw [hcommits.prog_eq, hcommits.cfg_eq]; exact h.prog_le
    os_fits := by rw [hcommits.cfg_eq]; exact hcommits.os_fits hpassed h.os_fits
    cs_fits := by rw [hcommits.cfg_eq]; exact hcommits.cs_fits h.cs_fits
    cs_range := by rw [hcommits.prog_eq]; exact hcommits.cs_range h hready
    labels_eq := by rw [hcommits.prog_eq, hcommits.labels_eq]; exact h.labels_eq
    fault_or_pending := fun hfault => absurd (hcommits.faultKind_eq.trans hnofault) hfault
    numeric_room := by rw [hcommits.cfg_eq]; exact hcommits.numeric_room hpassed hnorequest h.os_fits
    mem_wf := by
      rcases hcommits.mem_written with heq | ⟨_, hkeeps⟩
      · exact heq ▸ h.mem_wf
      · exact hkeeps h.mem_wf }

/-! ### The commands keep the invariant -/

theorem State.Inv.with_fault (h : s.Inv) (hnone : s.pending = .none) (k : FaultKind) (a : Index) :
    ({ s with faultKind := k, faultPc := a } : State).Inv :=
  { h with fault_or_pending := fun _ => hnone }

theorem step_keeps_inv (h : s.Inv) (hstep : step s = .next t) : t.Inv := by
  rcases step_cases s with ⟨_, hs⟩ | ⟨hready, ⟨_, hs⟩ | ⟨_, _, _, _, hs⟩ | ⟨_, i, _, _, hs⟩⟩
  · obtain rfl := Host.Outcome.next.inj (hs.symm.trans hstep)
    exact h
  · cases hs.symm.trans hstep
  · obtain rfl := Host.Outcome.next.inj (hs.symm.trans hstep)
    exact h.with_fault ((State.status_ready_iff s).mp hready).2.1 _ _
  · rcases exec_eq_next_cases (hs.symm.trans hstep) with ⟨k, _, _, rfl⟩ | ⟨hpassed, hcommits⟩
    · exact h.with_fault ((State.status_ready_iff s).mp hready).2.1 _ _
    · exact hcommits.inv hpassed h hready

theorem deliverCommand_keeps_inv (h : s.Inv) (v : Word) : (deliverCommand v s).Inv := by
  cases hpending : s.pending with
  | none => rwa [deliverCommand_of_none hpending]
  | line =>
    rw [deliverCommand_of_line hpending]
    exact { h with fault_or_pending := fun _ => rfl, numeric_room := nofun }
  | numeric =>
    rw [deliverCommand_of_numeric hpending]
    exact { h with
      os_fits := by rw [List.length_append]; exact h.numeric_room hpending
      fault_or_pending := fun _ => rfl
      numeric_room := nofun }

/-- RESET, or a LOAD of a program that fits, up to the fault of a duplicate. -/
theorem inv_installed (cfg : Config) {program : List InstrWord} (h : program.length ≤ cfg.maxProgLen.val) :
    ({ State.resetOf cfg with prog := program, labels := (resolveLabels program).1 } : State).Inv where
  pc_le := Nat.zero_le _
  prog_le := h
  os_fits := fits_zero _
  cs_fits := fits_zero _
  cs_range := nofun
  labels_eq := rfl
  fault_or_pending := fun _ => rfl
  numeric_room := nofun
  mem_wf := Memory.wf_nil

theorem resetOf_inv (cfg : Config) : (State.resetOf cfg).Inv := inv_installed cfg (Nat.zero_le _)

theorem loaded_inv {program : List InstrWord} (h : program.length ≤ s.cfg.maxProgLen.val) : (loaded program s).Inv := by
  have hinstalled := inv_installed s.cfg h
  cases hduplicate : (resolveLabels program).2 with
  | none => rwa [loaded_of_no_duplicate hduplicate]
  | some j =>
    rw [loaded_of_duplicate hduplicate]
    exact hinstalled.with_fault rfl _ _

theorem command_keeps_inv {c : HostCommand} (h : s.Inv) (hcommand : command c s = .next t) : t.Inv := by
  cases c with
  | reset =>
    obtain rfl := Host.Outcome.next.inj hcommand
    exact resetOf_inv s.cfg
  | load program =>
    obtain ⟨hlength, rfl⟩ := command_load_eq_next_iff.mp hcommand
    exact loaded_inv hlength
  | step => exact step_keeps_inv h hcommand
  | deliver v =>
    obtain rfl := Host.Outcome.next.inj hcommand
    exact deliverCommand_keeps_inv h v

/-! ### Runs -/

/-- What holds of a state and is kept by every STEP holds after every bounded RUN. -/
theorem runFor_keeps {P : State → Prop} (hstep : ∀ s t, P s → step s = .next t → P t) (h : P s)
    (hrun : runFor n s = .next t) : P t := by
  induction n generalizing s with
  | zero =>
    obtain rfl := Host.Outcome.next.inj hrun
    exact h
  | succ n ih =>
    rcases runFor_succ_eq_next_iff.mp hrun with ⟨_, rfl⟩ | ⟨_, u, hu, hrest⟩
    · exact h
    · exact ih (hstep s u h hu) hrest

/-- What no STEP changes, and the output channel, which every STEP extends. -/
structure Extends (s t : State) : Prop where
  prog_eq : t.prog = s.prog
  labels_eq : t.labels = s.labels
  cfg_eq : t.cfg = s.cfg
  out_extends : s.out <+: t.out

theorem Extends.of_out_eq (hprog : t.prog = s.prog) (hlabels : t.labels = s.labels) (hcfg : t.cfg = s.cfg)
    (hout : t.out = s.out) : Extends s t :=
  ⟨hprog, hlabels, hcfg, [], by rw [hout, List.append_nil]⟩

theorem Extends.refl (s : State) : Extends s s := .of_out_eq rfl rfl rfl rfl

theorem Extends.trans {u : State} (h : Extends s t) (h' : Extends t u) : Extends s u :=
  ⟨h'.prog_eq.trans h.prog_eq, h'.labels_eq.trans h.labels_eq, h'.cfg_eq.trans h.cfg_eq,
    h.out_extends.trans h'.out_extends⟩

theorem extends_of_commits (h : Commits i s t) : Extends s t := by
  rcases h.out_written with hout | ⟨_, e, hout⟩
  · exact .of_out_eq h.prog_eq h.labels_eq h.cfg_eq hout
  · exact ⟨h.prog_eq, h.labels_eq, h.cfg_eq, [e], hout.symm⟩

theorem extends_of_step (h : step s = .next t) : Extends s t := by
  rcases step_cases s with ⟨_, hs⟩ | ⟨_, ⟨_, hs⟩ | ⟨_, _, _, _, hs⟩ | ⟨_, i, _, _, hs⟩⟩
  · obtain rfl := Host.Outcome.next.inj (hs.symm.trans h)
    exact .refl s
  · cases hs.symm.trans h
  · obtain rfl := Host.Outcome.next.inj (hs.symm.trans h)
    exact .of_out_eq rfl rfl rfl rfl
  · rcases exec_eq_next_cases (hs.symm.trans h) with ⟨k, _, _, rfl⟩ | ⟨_, hcommits⟩
    · exact .of_out_eq rfl rfl rfl rfl
    · exact extends_of_commits hcommits

theorem extends_of_runFor (h : runFor n s = .next t) : Extends s t :=
  runFor_keeps (P := Extends s) (fun _ _ hextends hstep => hextends.trans (extends_of_step hstep)) (.refl s) h

/-! ### Every STEP completes -/

theorem exec_completes (i : Instr) (s : State) : ∃ t, exec i s = .next t := by
  rcases exec_cases i s with ⟨k, _, _, hfail⟩ | ⟨_, t, hnext, _⟩
  · exact ⟨_, hfail⟩
  · exact ⟨t, hnext⟩

/-- A STEP stops only for want of a word at PC, which the invariant rules out. -/
theorem State.Inv.step_completes (h : s.Inv) : ∃ t, step s = .next t := by
  rcases step_cases s with ⟨_, hs⟩ | ⟨hready, ⟨hfetch, _⟩ | ⟨_, _, _, _, hs⟩ | ⟨_, i, _, _, hs⟩⟩
  · exact ⟨s, hs⟩
  · exact absurd (h.pc_lt hready) (not_lt.mpr (List.getElem?_eq_none_iff.mp hfetch))
  · exact ⟨_, hs⟩
  · rw [hs]
    exact exec_completes i s

/-! ### The obligations -/

/-- Settles O56: nothing is on the stacks or in memory, no program is there and nothing is pending. -/
theorem resetMeetsTheInvariant : Obligations.ResetMeetsTheInvariant := ⟨resetOf_inv, resetOf_inv Config.document⟩

/-- Settles O57: a STEP does nothing, or raises a fault in Ready, or commits behind the tests of its instruction. -/
theorem stepKeepsTheInvariant : Obligations.StepKeepsTheInvariant := fun _ _ => step_keeps_inv

/-- Settles O58: one case per command, a RUN by its STEPs, the table by the markers it was resolved from. -/
theorem everyCommandKeepsTheStateInvariants : Obligations.EveryCommandKeepsTheStateInvariants := by
  refine ⟨fun s t hreset => ?_, fun program s t hload => ?_, fun c s t => command_keeps_inv,
    fun n s t h hrun => runFor_keeps (fun _ _ => step_keeps_inv) h hrun, fun s h id a => h.lookup_eq_some, ?_⟩
  · obtain rfl := Host.Outcome.next.inj hreset
    exact resetOf_inv s.cfg
  · obtain ⟨hlength, rfl⟩ := command_load_eq_next_iff.mp hload
    exact loaded_inv hlength
  · rintro c s t (rfl | ⟨v, rfl⟩) hcommand
    · exact ⟨(extends_of_step hcommand).prog_eq, (extends_of_step hcommand).labels_eq⟩
    · obtain rfl := Host.Outcome.next.inj hcommand
      obtain ⟨os, hdeliver⟩ := deliverCommand_frame v s
      rw [hdeliver]
      exact ⟨rfl, rfl⟩

/-- Settles O50: no STEP writes the program, the table or the parameters, and each leaves the output or appends to it,
by induction on the number of STEPs. -/
theorem runKeepsTheProgramAndExtendsTheOutput : Obligations.RunKeepsTheProgramAndExtendsTheOutput := by
  intro n s t hrun
  obtain ⟨hprog, hlabels, hcfg, hout⟩ := extends_of_runFor hrun
  exact ⟨hprog, hlabels, hcfg, hout⟩

/-- Settles O59: an instruction raises a fault or commits, and a STEP finds a word in Ready. -/
theorem everyInstructionAndEveryStepCompletes : Obligations.EveryInstructionAndEveryStepCompletes :=
  ⟨exec_completes, fun _ h => h.step_completes⟩

end Sys2Proof.Machine
end

section
/-! PROOFS. The state machine of the engine (10_state.md R37, R45, 70_reset_and_hazards.md R230), and instructions in a
row: what two or three of them leave, the end of a run at `Halt`, and the wait that `Read` opens. -/

namespace Sys2Proof.Machine

variable {s t : State} {below : List Word} {v id : Word}

/-! ### The status after each command (10_state.md R37) -/

/-- The state before the first STEP of a program. -/
def startOf (program : List InstrWord) : State := { State.reset with prog := program }

/-- DELIVER answers the request, so the engine runs on or has ended. -/
theorem deliverCommand_status_of_awaitingInput (h : s.status = .awaitingInput) (v : Word) :
    (deliverCommand v s).status = .ready ∨ (deliverCommand v s).status = .halted := by
  obtain ⟨hnofault, _⟩ := (State.status_awaitingInput_iff s).mp h
  by_cases hpc : s.pc.toNat = s.prog.length
  · exact .inr (deliverCommand_status_halted hnofault hpc v)
  · obtain ⟨os, hdeliver⟩ := deliverCommand_frame v s
    rw [hdeliver]
    exact .inl ((State.status_ready_iff _).mpr ⟨hnofault, rfl, hpc⟩)

theorem deliverCommand_of_not_awaitingInput (h : s.status = .ready ∨ s.status = .halted) (v : Word) :
    deliverCommand v s = s := by
  refine deliverCommand_of_none ?_ v
  rcases h with hready | hhalted
  · exact ((State.status_ready_iff s).mp hready).2.1
  · exact ((State.status_halted_iff s).mp hhalted).2.1

theorem deliverCommand_status_of_faulted (h : s.status = .faulted) (v : Word) :
    (deliverCommand v s).status = .faulted := by
  obtain ⟨os, hdeliver⟩ := deliverCommand_frame v s
  rw [hdeliver]
  exact (State.status_faulted_iff _).mpr ((State.status_faulted_iff s).mp h)

/-- The three ends of a LOAD: a program without a duplicate decides by its length, one with a duplicate is not empty. -/
theorem loaded_status (p : List InstrWord) (s : State) :
    ((loaded p s).status = .faulted ↔ ∃ j, RepeatsMarker p j) ∧
    ((loaded p s).status = .halted ↔ p = []) ∧
    ((loaded p s).status = .ready ↔ p ≠ [] ∧ ∀ j, ¬ RepeatsMarker p j) := by
  cases h : (resolveLabels p).2 with
  | none =>
    have hnone := not_repeatsMarker_of_resolveLabels_none h
    rw [loaded_status_of_no_duplicate h]
    split_ifs with hp
    · subst hp
      simp [hnone]
    · simp [hp, hnone]
  | some j =>
    obtain ⟨hrepeats, _⟩ := resolveLabels_of_duplicate h
    have hp : p ≠ [] := List.ne_nil_of_length_pos (Nat.zero_lt_of_lt hrepeats.lt_length)
    rw [(loaded_status_faulted_iff p s).mpr (by rw [h]; nofun)]
    exact ⟨⟨fun _ => ⟨j, hrepeats⟩, fun _ => rfl⟩, ⟨nofun, fun hnil => absurd hnil hp⟩,
      ⟨nofun, fun hnone => absurd hrepeats (hnone.2 j)⟩⟩

/-! ### Instructions in a row -/

theorem pc_add_one_add_one (pc : Index) : pc + 1 + 1 = pc + 2 := BitVec.add_assoc pc 1 1

/-- The stack written as a rule writes it is the stack. -/
theorem State.with_os_eq {os : List Word} (h : s.os = os) (pc : Index) :
    ({ s with os := os, pc := pc } : State) = { s with pc := pc } := by rw [← h]

theorem exec_swap_twice (h : 2 ≤ s.os.length) :
    ∃ t, exec .swap s = .next t ∧ exec .swap t = .next { s with pc := s.pc + 2 } := by
  obtain ⟨below, a, b, hos⟩ := exists_two_of_length (not_lt.mpr h)
  refine ⟨_, exec_swap_of_two hos, ?_⟩
  rw [exec_swap_of_two (below := below) rfl, ← State.with_os_eq hos, ← pc_add_one_add_one]

theorem exec_rot_thrice (h : 3 ≤ s.os.length) :
    ∃ t u, exec .rot s = .next t ∧ exec .rot t = .next u ∧ exec .rot u = .next { s with pc := s.pc + 3 } := by
  obtain ⟨below, a, b, c, hos⟩ := exists_three_of_length (not_lt.mpr h)
  refine ⟨_, _, exec_rot_of_three hos, exec_rot_of_three (below := below) rfl, ?_⟩
  have hpc : s.pc + 1 + 1 + 1 = s.pc + 3 := by rw [pc_add_one_add_one]; exact BitVec.add_assoc s.pc 1 2
  rw [exec_rot_of_three (below := below) rfl, ← State.with_os_eq hos, ← hpc]

theorem exec_load_of_entry {a : Word} (hroom : ¬ OsFull s) (h : s.mem.entry a.toNat = some v) :
    exec (.load a) s = .next { s with os := s.os ++ [v], pc := s.pc + 1 } := by
  rw [exec_load_of_room hroom, State.memRead_of_present h]

theorem exec_load_of_absent {a : Word} (hroom : ¬ OsFull s) (h : s.mem.entry a.toNat = none) :
    exec (.load a) s = .next { s with os := s.os ++ [0], pc := s.pc + 1 } := by
  rw [exec_load_of_room hroom, State.memRead_of_absent h]

theorem exec_load_after_store (a : Word) (hos : s.os = below ++ [v])
    (hroom : s.cfg.stackDepth ≠ .finite below.length) :
    ∃ t u, exec (.store a) s = .next t ∧ t.mem.entry a.toNat = some v ∧ exec (.load a) t = .next u ∧
      u = { s with mem := t.mem, pc := s.pc + 2 } := by
  have hentry : (s.mem.write a.toNat v).entry a.toNat = some v := by rw [Memory.entry_write, if_pos rfl]
  refine ⟨_, _, exec_store_of_one hos a, hentry, exec_load_of_entry hroom hentry, ?_⟩
  rw [← pc_add_one_add_one, ← hos]

theorem exec_load_after_free (a : Word) (hroom : ¬ OsFull s) :
    ∃ t u, exec (.free a) s = .next t ∧ t.mem.entry a.toNat = none ∧ exec (.load a) t = .next u ∧
      u = { s with os := s.os ++ [0], mem := t.mem, pc := s.pc + 2 } := by
  have hentry : (s.mem.free a.toNat).entry a.toNat = none := by rw [Memory.entry_free, if_pos rfl]
  refine ⟨_, _, exec_free a s, hentry, exec_load_of_absent hroom hentry, ?_⟩
  rw [← pc_add_one_add_one]

/-! ### The obligations -/

/-- Settles O10: a one-word program for each status, and one case per command. -/
theorem statusTransitionsAreThoseOfTheDiagram : Obligations.StatusTransitionsAreThoseOfTheDiagram := by
  refine ⟨fun u => ?_, fun c s t hcommand => ⟨?_, ?_, ?_, ?_⟩⟩
  · cases u with
    | ready => exact ⟨startOf [encode .clear, encode .clear], _, rfl, rfl, rfl⟩
    | awaitingInput => exact ⟨startOf [encode .scan], _, rfl, rfl, rfl⟩
    | halted => exact ⟨startOf [encode .clear], _, rfl, rfl, rfl⟩
    | faulted => exact ⟨startOf [encode .pop], _, rfl, rfl, rfl⟩
  · rintro rfl hstop
    exact (Host.Outcome.next.inj ((step_of_not_ready hstop).symm.trans hcommand)).symm
  · rintro v rfl
    obtain rfl := Host.Outcome.next.inj hcommand
    exact ⟨fun h => deliverCommand_status_of_awaitingInput h v, fun h => deliverCommand_of_not_awaitingInput h v,
      fun h => deliverCommand_status_of_faulted h v⟩
  · rintro rfl
    obtain rfl := Host.Outcome.next.inj hcommand
    exact resetCommand_status s
  · rintro p rfl
    obtain ⟨_, rfl⟩ := command_load_eq_next_iff.mp hcommand
    exact loaded_status p s

/-- Settles O6: the word at PC makes the status Ready, and STEP then runs what it decodes to. -/
theorem stepRunsTheDecodedInstruction : Obligations.StepRunsTheDecodedInstruction :=
  fun _ _ _ hfault hpending hfetch hdecode =>
    step_of_decode_ok (State.status_ready_of_fetch hfault hpending hfetch) hfetch hdecode

/-- Settles O11: RESET leaves the reset state of the engine's parameters, whose status is Halted. -/
theorem resetLeavesEveryElementAtItsResetValue : Obligations.ResetLeavesEveryElementAtItsResetValue := by
  refine ⟨fun s t hreset => ?_, rfl⟩
  obtain rfl := Host.Outcome.next.inj hreset
  have hhalted := resetCommand_status s
  exact ⟨rfl, rfl, rfl, fun _ => rfl, rfl, rfl, rfl, fun _ => rfl, rfl, rfl, rfl, rfl, rfl, hhalted,
    step_of_not_ready (by rw [hhalted]; nofun)⟩

/-- Settles O16: the top elements named, each exchange or rotation in turn. -/
theorem swapTwiceAndRotThriceRestore : Obligations.SwapTwiceAndRotThriceRestore :=
  ⟨fun _ => exec_swap_twice, fun _ => exec_rot_thrice⟩

/-- Settles O30: the return address is on top of the call stack that `Call` leaves. -/
theorem retUndoesCall : Obligations.RetUndoesCall :=
  fun _ _ _ hlabel hroom => ⟨_, exec_call_of_room hlabel hroom, rfl, exec_ret_of_top rfl⟩

/-- Settles O31: the marker's word and its run-time effect, by definition. -/
theorem labelMarkerOnlyAdvances : Obligations.LabelMarkerOnlyAdvances := fun _ => ⟨rfl, fun _ => rfl⟩

/-- Settles O32: `PC` is `L`, so with no fault and no request the status is Halted. -/
theorem haltEndsTheRunAtOnce : Obligations.HaltEndsTheRunAtOnce := by
  refine ⟨rfl, fun s => ⟨rfl, fun t hfault hpending hlength hexec => ?_⟩⟩
  obtain rfl := Host.Outcome.next.inj hexec
  have hpc : s.progLen.toNat = s.prog.length := by
    rw [State.progLen, BitVec.toNat_ofNat, Nat.mod_eq_of_lt hlength]
  have hhalted : (s.goto s.progLen).status = .halted := (State.status_halted_iff _).mpr ⟨hfault, hpending, hpc⟩
  have hstop : (s.goto s.progLen).status ≠ .ready := by rw [hhalted]; nofun
  exact ⟨hpc, hhalted, step_of_not_ready hstop, runFor_of_not_ready hstop⟩

/-- Settles O37: the memory that `Store` or `Free` leaves, read at the address it wrote. -/
theorem loadAfterStoreAndAfterFree : Obligations.LoadAfterStoreAndAfterFree :=
  fun _ a => ⟨fun _ _ => exec_load_after_store a, exec_load_after_free a⟩

/-- Settles O44: STEP runs the fetched `Read`; the request then stops STEP and RUN, and DELIVER ends it. -/
theorem readWaitsUntilTheHostDelivers : Obligations.ReadWaitsUntilTheHostDelivers := by
  intro s hready hfetch hroom
  obtain ⟨hfault, hpending, _⟩ := (State.status_ready_iff s).mp hready
  have hstep : step s = .next { s with pending := .numeric, pc := s.pc + 1 } :=
    (step_of_decode_ok hready hfetch (decode_encode .read)).trans (exec_read_of_room hroom)
  have hwaits : ({ s with pending := .numeric, pc := s.pc + 1 } : State).status = .awaitingInput :=
    (State.status_awaitingInput_iff _).mpr ⟨hfault, nofun⟩
  have hstop : ({ s with pending := .numeric, pc := s.pc + 1 } : State).status ≠ .ready := by rw [hwaits]; nofun
  refine ⟨_, hstep, hwaits, step_of_not_ready hstop, runFor_of_not_ready hstop, fun v => ?_⟩
  rw [deliverCommand_of_numeric rfl, ← hpending]
  refine ⟨rfl, ?_⟩
  split_ifs with hpc
  · exact (State.status_halted_iff _).mpr ⟨hfault, hpending, hpc⟩
  · exact (State.status_ready_iff _).mpr ⟨hfault, hpending, hpc⟩

end Sys2Proof.Machine
end

section
/-! PROOFS. The canonical form of data memory (log entry 1): what it holds determines it, and so the block that `Alloc`
writes at once is the writes of its pseudocode in turn (44_memory.md R152). -/

namespace Sys2Proof.Machine.Memory

/-- The addresses of the cells rise strictly. -/
abbrev Rising (m : Memory) : Prop := m.Pairwise (fun x y => x.1 < y.1)

theorem entry_cons_self (a : Nat) (v : Word) (m : Memory) : entry ((a, v) :: m) a = some v := if_pos rfl

theorem entry_cons_of_ne {a b : Nat} (h : b ≠ a) (v : Word) (m : Memory) : entry ((b, v) :: m) a = entry m a := if_neg h

/-- Below the address of its first cell, and at it behind that cell, a rising memory holds nothing. -/
theorem entry_eq_none_of_rising {a b : Nat} {v : Word} {m : Memory} (h : Rising ((b, v) :: m)) (hab : a ≤ b) :
    entry m a = none :=
  entry_eq_none_iff.mpr fun c hc => (hab.trans_lt ((List.pairwise_cons.mp h).1 c hc)).ne'

/-- The first cell of a rising memory has the lowest address that holds a word. -/
theorem le_of_entry_eq_some {a b : Nat} {u v : Word} {m : Memory} (h : Rising ((b, v) :: m))
    (ha : entry ((b, v) :: m) a = some u) : b ≤ a := by
  by_contra hlt
  have hab : a < b := not_le.mp hlt
  rw [entry_cons_of_ne hab.ne', entry_eq_none_of_rising h hab.le] at ha
  cases ha

/-- Rising memories that hold the same are equal: their first cells are, and then the cells behind them. -/
theorem eq_of_entry_eq {m k : Memory} (hm : Rising m) (hk : Rising k) (h : ∀ a, m.entry a = k.entry a) : m = k := by
  induction m generalizing k with
  | nil =>
    cases k with
    | nil => rfl
    | cons c k => cases (h c.1).trans (entry_cons_self c.1 c.2 k)
  | cons c m ih =>
    obtain ⟨a, v⟩ := c
    cases k with
    | nil => cases (h a).symm.trans (entry_cons_self a v m)
    | cons d k =>
      obtain ⟨b, u⟩ := d
      have ha := (h a).symm.trans (entry_cons_self a v m)
      have hb := (h b).trans (entry_cons_self b u k)
      obtain rfl : a = b := le_antisymm (le_of_entry_eq_some hm hb) (le_of_entry_eq_some hk ha)
      obtain rfl : u = v := Option.some.inj ((entry_cons_self a u k).symm.trans ha)
      have htails : ∀ x, entry m x = entry k x := by
        intro x
        by_cases hx : a = x
        · rw [← hx, entry_eq_none_of_rising hm le_rfl, entry_eq_none_of_rising hk le_rfl]
        · have hcell := h x
          rwa [entry_cons_of_ne hx, entry_cons_of_ne hx] at hcell
      rw [ih (List.pairwise_cons.mp hm).2 (List.pairwise_cons.mp hk).2 htails]

/-- No canonical memory holds a word beyond the addresses of 32 bits. -/
theorem entry_eq_none_of_wf {m : Memory} (h : m.wf) {a : Nat} (ha : 4294967296 ≤ a) : m.entry a = none :=
  entry_eq_none_iff.mpr fun c hc => ((h.2 c hc).trans_le ha).ne

/-! ### The writes of `Alloc` in turn -/

/-- A write of 0 to each of the addresses 0 to `n - 1`, one after the other. -/
def zeroInTurn (n : Nat) (m : Memory) : Memory := (List.range n).foldl (fun k a => k.write a 0) m

theorem zeroInTurn_succ (n : Nat) (m : Memory) : zeroInTurn (n + 1) m = (zeroInTurn n m).write n 0 := by
  rw [zeroInTurn, List.range_succ, List.foldl_concat, zeroInTurn]

theorem rising_zeroInTurn (n : Nat) {m : Memory} (h : Rising m) : Rising (zeroInTurn n m) := by
  induction n with
  | zero => exact h
  | succ n ih =>
    rw [zeroInTurn_succ]
    exact pairwise_write n 0 ih

theorem entry_zeroInTurn (n : Nat) (m : Memory) (a : Nat) :
    (zeroInTurn n m).entry a = if a < n then some 0 else m.entry a := by
  induction n with
  | zero => rfl
  | succ n ih =>
    rw [zeroInTurn_succ, entry_write, ih]
    by_cases ha : n = a
    · simp [ha]
    · simp only [if_neg ha, Nat.lt_succ_iff_lt_or_eq, Ne.symm ha, or_false]

/-- The block lies below the cells that are kept. -/
theorem rising_zeroBlock (n : Nat) {m : Memory} (h : Rising m) : Rising (m.zeroBlock n) := by
  refine List.pairwise_append.mpr ⟨List.pairwise_map.mpr List.pairwise_lt_range, h.filter _, fun x hx y hy => ?_⟩
  obtain ⟨a, ha, rfl⟩ := List.mem_map.mp hx
  exact (List.mem_range.mp ha).trans_le (of_decide_eq_true (List.mem_filter.mp hy).2)

end Sys2Proof.Machine.Memory

namespace Sys2Proof.Machine

/-! ### The obligations -/

/-- Settles O38: both memories rise, and each address below the count reads 0 and every other what it held. -/
theorem allocBlockIsTheWritesInTurn : Obligations.AllocBlockIsTheWritesInTurn := by
  intro m n hwf
  refine Memory.eq_of_entry_eq (Memory.rising_zeroBlock n hwf.1) (Memory.rising_zeroInTurn n hwf.1) fun a => ?_
  exact (Memory.entry_zeroBlock m n a).trans (Memory.entry_zeroInTurn n m a).symm

/-- Settles O39: canonical memories rise, and beyond the addresses of 32 bits both hold nothing. -/
theorem canonicalMemoriesAreEqualData : Obligations.CanonicalMemoriesAreEqualData := by
  intro m k hm hk h
  refine Memory.eq_of_entry_eq hm.1 hk.1 fun a => ?_
  by_cases ha : a < 4294967296
  · have hword : (BitVec.ofNat 32 a).toNat = a := by rw [BitVec.toNat_ofNat, Nat.mod_eq_of_lt ha]
    have hentry := h (BitVec.ofNat 32 a)
    rwa [hword] at hentry
  · rw [Memory.entry_eq_none_of_wf hm (not_lt.mp ha), Memory.entry_eq_none_of_wf hk (not_lt.mp ha)]

end Sys2Proof.Machine
end

section
/-! PROOFS. The quotient of `Div` and the remainder of `Rem` belong to one division (41_arithmetic.md R119 (b), (c)):
the facts hold of the integers, and both results but the one overflowing quotient are their own signed words. -/

namespace Sys2Proof.Machine

variable {lhs rhs : Word}

theorem word_bounds (v : Word) : -2147483648 ≤ v.toInt ∧ v.toInt < 2147483648 := ⟨v.le_toInt, v.toInt_lt⟩

theorem toInt_wrap {n : Int} (hlo : -2147483648 ≤ n) (hhi : n < 2147483648) : (wrap n).toInt = n :=
  BitVec.toInt_ofInt_eq_self (by decide) hlo hhi

theorem trem_eq_tmod (a b : Int) : trem a b = a.tmod b := (Int.tmod_def a b).symm

/-! ### The remainder -/

theorem natAbs_tmod_lt (a : Int) {b : Int} (h : b ≠ 0) : (a.tmod b).natAbs < b.natAbs := by
  rw [Int.natAbs_tmod]
  exact Nat.mod_lt _ (Int.natAbs_pos.mpr h)

theorem toInt_aluRem (h : rhs.toInt ≠ 0) : (aluRem lhs rhs).toInt = lhs.toInt.tmod rhs.toInt := by
  have hlt := natAbs_tmod_lt lhs.toInt h
  have hbounds := word_bounds rhs
  rw [aluRem, trem_eq_tmod]
  exact toInt_wrap (by omega) (by omega)

theorem sign_tmod_eq_or_zero (a b : Int) : a.tmod b = 0 ∨ (a.tmod b).sign = a.sign := by
  rw [Int.sign_tmod]
  split_ifs with hdvd
  · exact .inl (Int.tmod_eq_zero_of_dvd hdvd)
  · exact .inr rfl

/-! ### The quotient -/

theorem natAbs_mul_tdiv_le (a b : Int) : (b * a.tdiv b).natAbs ≤ a.natAbs := by
  rw [Int.natAbs_mul, Int.natAbs_tdiv]
  exact Nat.mul_div_le _ _

/-- A quotient as large as 2^31 is that of a dividend as large by 1 or -1, and only the latter turns its sign. -/
theorem tdiv_lt_of_not_overflow (h : ¬ (lhs = 0x80000000#32 ∧ rhs = 0xFFFFFFFF#32)) :
    lhs.toInt.tdiv rhs.toInt < 2147483648 := by
  by_contra hlarge
  have hbounds := word_bounds lhs
  have hmul := natAbs_mul_tdiv_le lhs.toInt rhs.toInt
  have hquotient : 2147483648 ≤ (lhs.toInt.tdiv rhs.toInt).natAbs := by omega
  have hzero : rhs.toInt ≠ 0 := by
    intro hrhs
    simp [hrhs] at hquotient
  have hdivisor : rhs.toInt.natAbs = 1 := by
    rw [Int.natAbs_mul] at hmul
    by_contra hne
    have htwo : 2 ≤ rhs.toInt.natAbs := by omega
    have hproduct := Nat.mul_le_mul htwo hquotient
    omega
  have hdividend : lhs.toInt = -2147483648 := by
    rw [Int.natAbs_mul, hdivisor] at hmul
    omega
  rcases Int.natAbs_eq_iff.mp hdivisor with hone | hminus
  · rw [hone, hdividend] at hlarge
    exact hlarge (by decide)
  · exact h ⟨BitVec.eq_of_toInt_eq hdividend, BitVec.eq_of_toInt_eq hminus⟩

theorem toInt_aluDiv (h : ¬ (lhs = 0x80000000#32 ∧ rhs = 0xFFFFFFFF#32)) :
    (aluDiv lhs rhs).toInt = lhs.toInt.tdiv rhs.toInt := by
  have hle := Int.natAbs_tdiv_le_natAbs lhs.toInt rhs.toInt
  have hbounds := word_bounds lhs
  rw [aluDiv, tdiv]
  exact toInt_wrap (by omega) (tdiv_lt_of_not_overflow h)

/-! ### Both -/

/-- The law modulo 2^32, where wrapping is a homomorphism. -/
theorem eq_mul_aluDiv_add_aluRem (lhs rhs : Word) : lhs = rhs * aluDiv lhs rhs + aluRem lhs rhs := by
  have hlaw : rhs.toInt * lhs.toInt.tdiv rhs.toInt + trem lhs.toInt rhs.toInt = lhs.toInt := by
    rw [trem, tdiv]
    omega
  calc lhs = wrap (rhs.toInt * lhs.toInt.tdiv rhs.toInt + trem lhs.toInt rhs.toInt) := by
        rw [hlaw, wrap, BitVec.ofInt_toInt]
    _ = wrap rhs.toInt * aluDiv lhs rhs + aluRem lhs rhs := by
        rw [wrap, BitVec.ofInt_add, BitVec.ofInt_mul]
        rfl
    _ = rhs * aluDiv lhs rhs + aluRem lhs rhs := by rw [wrap, BitVec.ofInt_toInt]

/-! ### The obligation -/

/-- Settles O20: the two answers of the dividing form, then the law modulo 2^32, the remainder, and the quotient where
it does not overflow and where it does. -/
theorem quotientAndRemainderBelongTogether : Obligations.QuotientAndRemainderBelongTogether := by
  intro s below lhs rhs hos hnonzero
  refine ⟨aluDiv lhs rhs, aluRem lhs rhs, (dividing_of_two aluDiv hos).2 hnonzero,
    (dividing_of_two aluRem hos).2 hnonzero, eq_mul_aluDiv_add_aluRem lhs rhs, ?_, ?_, fun hexact => ?_, ?_⟩
  · rw [toInt_aluRem hnonzero]
    exact sign_tmod_eq_or_zero _ _
  · rw [toInt_aluRem hnonzero]
    exact natAbs_tmod_lt _ hnonzero
  · rw [toInt_aluRem hnonzero, toInt_aluDiv hexact]
    exact ⟨(Int.mul_tdiv_add_tmod _ _).symm, natAbs_mul_tdiv_le _ _⟩
  · rintro ⟨rfl, rfl⟩
    exact ⟨rfl, rfl⟩

end Sys2Proof.Machine
end
